-- ==== Sys2Proof/Word.lean ====
section
/-! DEFINITION. The words of the Regjet 740 and the numbers of its ports, entries and regions (spec/00_scope.md, Conventions). -/

namespace Sys2Proof

/-- A byte of the maintenance link. -/
abbrev Byte := BitVec 8

/-- A 32-bit address or data value. -/
abbrev Word := BitVec 32

/-- A line number, ADDR ÷ 16: 0..$0FFF_FFFF. -/
abbrev Line := BitVec 28

/-- A block number of the region table, ADDR ÷ 256: 0..$00FF_FFFF. -/
abbrev Block := BitVec 24

/-- A master's label for a request, 0..15 (R3). -/
abbrev Tag := BitVec 4

/-- An upstream port, P0..P3. -/
abbrev Port := Fin 4

/-- The index of an interlock entry, E0..E7. -/
abbrev EntryIx := Fin 8

/-- The number of a region entry, 0..15. -/
abbrev RegionIx := Fin 16

/-- P0..P3 in order. -/
def allPorts : List Port := [0, 1, 2, 3]

/-- E0..E7 in order of index. -/
def allEntries : List EntryIx := [0, 1, 2, 3, 4, 5, 6, 7]

end Sys2Proof
end

