-- ==== Sys2Proof/Syntax.lean ====
section
/-! DEFINITION. The commands of the block: one constructor of `Instr` for each row of spec/opcode_table.json, with the operands
the row's rule names. -/

namespace Sys2Proof

/-- The privilege a master claims (R6; codes in R193). -/
inductive Priv where
  | supervisor
  | user
  deriving DecidableEq, Repr

/-- A request on an upstream request channel, every field as captured at acceptance (R1, R3). KIND, WIDTH and OP are the
codes as received, undefined ones included (R193). -/
structure Request where
  kind  : BitVec 3
  addr  : Word
  width : BitVec 2
  priv  : Priv
  tag   : Tag
  data  : Word
  data2 : Word
  op    : BitVec 3
  deriving DecidableEq, Repr

/-- The status a completion carries (R131, R194). -/
inductive CompletionStatus where
  | ok
  | dataError
  deriving DecidableEq, Repr

/-- The operations and events of the part (spec/opcode_table.json). A command that names an event whose conditions do not
hold changes nothing (log 4). -/
inductive Instr where
  /-- R1: the master of `p` presents `r`. -/
  | acceptance (p : Port) (r : Request)
  /-- R2: the master of `p` presents ready on its response channel. -/
  | delivery (p : Port)
  /-- R10: `p` decides its head. -/
  | decision (p : Port)
  /-- R133: the arbiter grants one transfer. -/
  | grant
  /-- R130: the memory controller presents ready to the offered transfer. -/
  | transferAcceptance
  /-- R131: the memory controller offers a completion. -/
  | completion (status : CompletionStatus) (data : Word)
  /-- R83: the hold timer of HELD entry `e` stands at zero. -/
  | holdExpiry (e : EntryIx)
  /-- R81: the hold timer of FUSING UNDER-LOCK entry `e` stands at zero. -/
  | expiryDue (e : EntryIx)
  /-- R140: the front outstanding transfer has reached the response limit. -/
  | responseLimitExpiry
  /-- R143: MEM_IDLE presents the level `memIdle` (true: asserted). -/
  | passageToUp (memIdle : Bool)
  /-- R21: RST_N resets the part, with DEFCFG strapped at `defcfg` (true: high). -/
  | deviceReset (defcfg : Bool)
  /-- R22: PRST_N of `p` is asserted. -/
  | prstNAsserted (p : Port)
  /-- R22: PRST_N of `p` is deasserted. -/
  | prstNDeasserted (p : Port)
  /-- R173: MCS_N falls. -/
  | mcsNFalling
  /-- R178: MCS_N rises. -/
  | mcsNRising
  /-- R175: a command byte that is none of the thirteen codes is received. -/
  | badCommand (b : Byte)
  /-- R181: the command byte $10 is received. -/
  | readStatus
  /-- R182: the last argument byte of READ-PORT is received. -/
  | readPort (b : Byte)
  /-- R183: the last argument byte of READ-REGION is received. -/
  | readRegion (b : Byte)
  /-- R184: the last argument byte of READ-LOCK is received. -/
  | readLock (b : Byte)
  /-- R185: the command byte $14 is received. -/
  | readMemoryPort
  /-- R20, R186: the last argument byte of WRITE-PROFILE is received. -/
  | writeProfile (b : Byte)
  /-- R23: the last argument byte of PAUSE-PORT is received. -/
  | pausePort (b : Byte)
  /-- R24: the last argument byte of RESUME-PORT is received. -/
  | resumePort (b : Byte)
  /-- R158: the last argument byte of ACK-FAULT is received. -/
  | ackFault (b : Byte)
  /-- R33, R189: the last argument byte of WRITE-REGION is received. -/
  | writeRegion (b : Byte)
  /-- R91: the last argument byte of BREAK-LOCK is received. -/
  | breakLock (b : Byte)
  /-- R148: the last argument byte of SET-RESPONSE-LIMIT is received. -/
  | setResponseLimit (b : Byte)
  /-- R147: the command byte $34 is received. -/
  | recoverMemory
  /-- R176: a byte position of a frame completes, `b` on MDI, without reaching a point of effect. -/
  | byteReceived (b : Byte)
  deriving DecidableEq, Repr

end Sys2Proof
end

