-- ==== Sys2Proof/Decode.lean ====
section
/-! DEFINITION. Commands spelt by a word. spec/opcode_table.json gives no row any bits, so no word spells a command (log 17). -/

namespace Sys2Proof

/-- The command that a word of `nbits` bits spells by the table's bits: none, since no row of the table gives bits. -/
def decodeTableWord (_nbits _w : Nat) : Option Instr := none

end Sys2Proof
end

