-- ==== Sys2Proof/Config.lean ====
section
/-! DEFINITION. What the manual leaves open, as values no proof can see. -/

namespace Sys2Proof

/-- FREE VALUE (log 1). Where events of the part itself fall together, "either may be taken first" (R60, R74, R98, R157 and
others): the `n`-th such choice takes the due event whose place in the list of due events is this number, modulo the
list's length. -/
opaque Config.eventOrder (n : Nat) : Nat

end Sys2Proof
end

