-- ==== Sys2Proof/Machine/Codes.lean ====
section
/-! DEFINITION. The commands and statuses of the maintenance link with their bytes and lengths (R195, R196, R197; table of
section 9.5). -/

namespace Sys2Proof.Machine

/-- The thirteen maintenance commands. -/
inductive MaintCommand where
  | readStatus
  | readPort
  | readRegion
  | readLock
  | readMemoryPort
  | writeProfile
  | pausePort
  | resumePort
  | ackFault
  | writeRegion
  | breakLock
  | setResponseLimit
  | recoverMemory
  deriving DecidableEq, Repr

/-- The thirteen commands, for looking a byte up. -/
def MaintCommand.all : List MaintCommand :=
  [.readStatus, .readPort, .readRegion, .readLock, .readMemoryPort, .writeProfile, .pausePort, .resumePort, .ackFault,
   .writeRegion, .breakLock, .setResponseLimit, .recoverMemory]

/-- The command bytes (R195). -/
def MaintCommand.code : MaintCommand → Byte
  | .readStatus       => 0x10
  | .readPort         => 0x11
  | .readRegion       => 0x12
  | .readLock         => 0x13
  | .readMemoryPort   => 0x14
  | .writeProfile     => 0x21
  | .pausePort        => 0x22
  | .resumePort       => 0x23
  | .ackFault         => 0x24
  | .writeRegion      => 0x31
  | .breakLock        => 0x32
  | .setResponseLimit => 0x33
  | .recoverMemory    => 0x34

/-- The command a byte names; every other value is unknown (R175). -/
def MaintCommand.ofByte (b : Byte) : Option MaintCommand :=
  MaintCommand.all.find? (fun c => c.code == b)

/-- The argument count of a command (table of section 9.5; R196). -/
def MaintCommand.argCount : MaintCommand → Nat
  | .readStatus       => 0
  | .readPort         => 1
  | .readRegion       => 1
  | .readLock         => 1
  | .readMemoryPort   => 0
  | .writeProfile     => 5
  | .pausePort        => 1
  | .resumePort       => 1
  | .ackFault         => 1
  | .writeRegion      => 9
  | .breakLock        => 1
  | .setResponseLimit => 1
  | .recoverMemory    => 0

/-- The response length of a command answered OK (table of section 9.5; R197). -/
def MaintCommand.responseLength : MaintCommand → Nat
  | .readStatus       => 7
  | .readPort         => 27
  | .readRegion       => 8
  | .readLock         => 12
  | .readMemoryPort   => 7
  | .writeProfile     => 0
  | .pausePort        => 0
  | .resumePort       => 0
  | .ackFault         => 0
  | .writeRegion      => 0
  | .breakLock        => 0
  | .setResponseLimit => 0
  | .recoverMemory    => 0

/-- The result of a maintenance frame. -/
inductive Status where
  | ok
  | badCommand
  | badArg
  | wrongState
  | notQuiet
  | busy
  deriving DecidableEq, Repr

/-- The status bytes (R195). -/
def Status.code : Status → Byte
  | .ok         => 0xA0
  | .badCommand => 0xA1
  | .badArg     => 0xA2
  | .wrongState => 0xA3
  | .notQuiet   => 0xA4
  | .busy       => 0xA5

end Sys2Proof.Machine
end

