-- ==== Sys2Proof/Machine/State.lean ====
section
/-! DEFINITION. The state of the Regjet 740: every register, list, timer, mode and pin the spec gives it, as plain data, and the
state after a device reset. -/

namespace Sys2Proof.Machine

/-! ### Requests and responses -/

/-- WIDTH, decoded (R5, R193). -/
inductive Width where
  | byte
  | half
  | word
  deriving DecidableEq, Repr

/-- OP, decoded (R193). -/
inductive FusedOp where
  | add
  | sub
  | setBits
  | clearBits
  | flipBits
  | swap
  | cswap
  deriving DecidableEq, Repr

/-- KIND, decoded (R4, R193); a FUSED carries its OP, the only kind whose OP is read (R3). -/
inductive Kind where
  | read
  | write
  | lockRead
  | releaseWrite
  | unlock
  | fused (op : FusedOp)
  deriving DecidableEq, Repr

/-- The outcomes a response can name (R7, R193). -/
inductive OutcomeCode where
  | done
  | fenced
  | badRequest
  | misaligned
  | noRegion
  | denied
  | lockHeld
  | limit
  | notHeld
  | broken
  | deadlock
  | memError
  | memDown
  deriving DecidableEq, Repr

/-- The condition flags of a fused operation (R106..R111). -/
structure Flags where
  n : Bool
  z : Bool
  v : Bool
  c : Bool
  deriving DecidableEq, Repr

/-- Flags all zero (R7). -/
def Flags.zero : Flags := ⟨false, false, false, false⟩

/-- What a response carries besides its tag (R7). -/
structure Answer where
  outcome : OutcomeCode
  data    : Word
  flags   : Flags
  deriving DecidableEq, Repr

/-- The direction of a downstream transfer (R130). -/
inductive Direction where
  | read
  | write
  deriving DecidableEq, Repr

/-- A downstream transfer (R130). -/
structure Transfer where
  dir   : Direction
  addr  : Word
  width : Width
  data  : Word
  deriving DecidableEq, Repr

/-- What the transfer of a port request is for (R132): a plain READ or WRITE, the acquire read or the release write of an
interlock entry. -/
inductive TransferUse where
  | plain
  | acquire (e : EntryIx)
  | release (e : EntryIx)
  deriving DecidableEq, Repr

/-- The states of a response-list entry (R14). -/
inductive RespState where
  | awaitingGrant (use : TransferUse) (t : Transfer)
  | atMemory
  | inOperation
  | parked
  | entryWait
  | handedOver
  | complete (a : Answer)
  deriving DecidableEq, Repr

/-- An entry of a response list (R13). `id` is its identity for the other blocks (log 9). -/
structure RespEntry where
  id    : Nat
  tag   : Tag
  kind  : BitVec 3
  state : RespState
  deriving DecidableEq, Repr

/-- What a request that passed steps 1 to 6 hands to the interlock stage (R40), and what its later re-decision carries (R44). -/
structure Checked where
  kind     : Kind
  addr     : Word
  width    : Width
  data     : Word
  data2    : Word
  readthru : Bool
  deriving DecidableEq, Repr

/-- The held place of an inbound queue (R8): the request as accepted, its response-list entry, and what its decision carried. -/
structure HeldPlace where
  request : Request
  id      : Nat
  checked : Checked
  deriving DecidableEq, Repr

/-! ### Upstream ports -/

/-- The port states (section 1.8). -/
inductive PortState where
  | offline
  | active
  | paused
  | fenced
  deriving DecidableEq, Repr

/-- A port's profile (R18); `capUser` is the privilege cap USER. -/
structure Profile where
  enabled      : Bool
  lockLimit    : BitVec 2
  holdLimit    : BitVec 10
  fusedAllowed : Bool
  capUser      : Bool
  deriving DecidableEq, Repr

/-- The eight fault kinds (chapter 8). -/
inductive FaultKind where
  | badRequest
  | misaligned
  | noRegion
  | denied
  | lockHeld
  | limit
  | notHeld
  | holdExpired
  deriving DecidableEq, Repr

/-- What a decision's report says of the request that raised it (R154). -/
structure Culprit where
  tag  : Tag
  kind : BitVec 3
  priv : Priv
  deriving DecidableEq, Repr

/-- A fault report (R154); an expiry's has no culprit. -/
structure Report where
  kind    : FaultKind
  addr    : Word
  culprit : Option Culprit
  deriving DecidableEq, Repr

/-- A port's fault record (R155). -/
inductive FaultRecord where
  | empty
  | first (r : Report)
  | two (r : Report) (second : FaultKind)
  deriving DecidableEq, Repr

/-- One upstream port interface: port state, profile, inbound queue (`held` in front of `queue`), response list and fault
record. `nextId` is the model's own (log 9). -/
structure PortIf where
  state   : PortState
  profile : Profile
  held    : Option HeldPlace
  queue   : List Request
  resp    : List RespEntry
  fault   : FaultRecord
  nextId  : Nat
  deriving DecidableEq, Repr

/-! ### Region table -/

/-- An entry of the region table (R28). -/
structure Region where
  valid    : Bool
  base     : Block
  limit    : Block
  mask     : BitVec 4
  sr       : Bool
  sw       : Bool
  ur       : Bool
  uw       : Bool
  lock     : Bool
  readthru : Bool
  deriving DecidableEq, Repr

/-! ### Interlock table -/

/-- The state of a non-FREE interlock entry with the fields present in it (R46). Hold remaining is counted in quanta of REFCLK
time (log 2). An UNDER-LOCK entry marked detached has no timer (R82); a FRESH one is never marked (R127). -/
inductive EntryWork where
  | acquiring (detached : Bool)
  | held (remaining : Nat)
  | releasing (detached : Bool)
  | fusingFresh
  | fusingUnderLock (remaining : Nat) (expiryDue : Bool)
  | fusingDetached
  deriving DecidableEq, Repr

/-- A non-FREE interlock entry (R46). -/
structure Entry where
  line    : Line
  owner   : Port
  work    : EntryWork
  waiters : List Port
  deriving DecidableEq, Repr

/-- Why a line was broken (R86). -/
inductive BreakCause where
  | timeout
  | maintenance
  deriving DecidableEq, Repr

/-- The state of a held-line list entry (R50). -/
inductive HeldState where
  | acquiring
  | held
  | releasing
  | broken (cause : BreakCause)
  deriving DecidableEq, Repr

/-- An entry of a held-line list (R50). -/
structure HeldLine where
  line  : Line
  state : HeldState
  deriving DecidableEq, Repr

/-- What an item of the handover list releases (R73). -/
inductive HandoverWork where
  | request (id : Nat) (use : TransferUse)
  | operationRead
  deriving DecidableEq, Repr

/-- An item of the handover list (R73). -/
structure HandoverItem where
  port     : Port
  work     : HandoverWork
  transfer : Transfer
  deriving DecidableEq, Repr

/-- The interlock table: E0..E7 (`none` is FREE), one held-line list per port, the handover list and the entry-wait list. -/
structure Interlock where
  entries   : Vector (Option Entry) 8
  heldLines : Vector (List HeldLine) 4
  handover  : List HandoverItem
  entryWait : List Port
  deriving DecidableEq, Repr

/-! ### Operation unit -/

/-- Where the operation read of a record in READING stands (R114, R115). -/
inductive ReadPlace where
  | candidate
  | handover
  | outstanding
  deriving DecidableEq, Repr

/-- The phase of an operation record (R115), with the values computed at its read (R118). -/
inductive OpPhase where
  | reading (place : ReadPlace)
  | writePending (old result : Word) (flags : Flags)
  | writing (old result : Word) (flags : Flags)
  deriving DecidableEq, Repr

/-- The mode of a fused operation (R113). -/
inductive FusedMode where
  | fresh
  | underLock
  deriving DecidableEq, Repr

/-- An operation record (R113): `operand` is S, `newValue` is T, both in the low WIDTH bytes. -/
structure OpRecord where
  op       : FusedOp
  width    : Width
  addr     : Word
  operand  : Word
  newValue : Word
  phase    : OpPhase
  mode     : FusedMode
  entry    : EntryIx
  detached : Bool
  respId   : Nat
  deriving DecidableEq, Repr

/-- An item of the write-back list (R120); it names the record of `port`. -/
structure WriteBackItem where
  port     : Port
  transfer : Transfer
  deriving DecidableEq, Repr

/-- The operation unit: at most one record per port, and the write-back list. -/
structure OpUnit where
  records   : Vector (Option OpRecord) 4
  writeBack : List WriteBackItem
  deriving DecidableEq, Repr

/-! ### Memory port -/

/-- The cause of DOWN (R142). -/
inductive DownCause where
  | timeout
  | unexpected
  deriving DecidableEq, Repr

/-- The memory port state; the cause is NONE outside DOWN (R142). -/
inductive MemState where
  | settling
  | up
  | down (cause : DownCause)
  deriving DecidableEq, Repr

/-- The origin of an outstanding transfer with what it names (R132); an operation's record is named by its port. -/
inductive Origin where
  | request (p : Port) (id : Nat) (use : TransferUse)
  | operationRead (p : Port)
  | writeBack (p : Port)
  deriving DecidableEq, Repr

/-- An item of the outstanding list (R132). -/
structure OutItem where
  transfer  : Transfer
  issueTime : Nat
  accepted  : Bool
  origin    : Origin
  deriving DecidableEq, Repr

/-- The memory port and its arbiter (R142). -/
structure MemPort where
  state       : MemState
  outstanding : List OutItem
  limit       : Byte
  pointer     : Port
  deriving DecidableEq, Repr

/-! ### Maintenance link, pins and time -/

/-- The frame in progress (table of frame phases, R173..R179). `reply` holds the whole reply (R177) and how many of its bytes
have been sent. -/
inductive Frame where
  | idle
  | deselectWait
  | command
  | arguments (c : MaintCommand) (received : List Byte)
  | reply (bytes : List Byte) (sent : Nat)
  | trailing
  deriving DecidableEq, Repr

/-- The input pins whose levels last: PRST_N[3:0] and MCS_N as asserted or not, MEM_IDLE as asserted or not, and the level of
DEFCFG sampled at the last device reset (true: high). -/
structure Pins where
  prst    : Vector Bool 4
  mcs     : Bool
  memIdle : Bool
  defcfg  : Bool
  deriving DecidableEq, Repr

/-- The model's clock (log 2): REFCLK time elapsed in quanta, and one less than the number of quanta in a microsecond. -/
structure Clock where
  now   : Nat
  finer : Nat
  deriving DecidableEq, Repr

/-- The state of the block. `shift` holds the bits of the byte position in progress, the oldest first (R174). `wire`, `clock`,
`choices` and `pending` are the model's own: `wire` is what the BMC does with MCLK in each quantum of time to come, a level on MDI at
a rising edge or nothing (log 1, 2, 3, 8). -/
structure State where
  ports   : Vector PortIf 4
  regions : Vector Region 16
  table   : Interlock
  ops     : OpUnit
  mem     : MemPort
  link    : Frame
  shift   : List Bool
  pins    : Pins
  wire    : List (Option Bool)
  clock   : Clock
  choices : Nat
  pending : List Instr
  deriving DecidableEq, Repr

/-- Why a step would stop. Nothing in the spec stops the part: its own faults are recorded against a port and are next states
(R154). So there is no constructor. -/
inductive Fault where
  deriving DecidableEq, Repr

/-- Why a step is refused. -/
inductive Refusal where
  /-- Raised by an arm of `exec` whose command has no meaning yet; safe, since nothing follows. No arm raises it. -/
  | notModelled (mnemonic : String)
  deriving DecidableEq, Repr

/-! ### Reset -/

/-- The profile at device reset, by the level of DEFCFG (R19). -/
def Profile.reset (defcfg : Bool) : Profile :=
  if defcfg then ⟨true, 2, 1000, true, false⟩ else ⟨false, 1, 100, false, false⟩

/-- The port state at device reset, by DEFCFG and whether the port's PRST_N is asserted (R21). -/
def PortState.reset (defcfg prst : Bool) : PortState :=
  if defcfg && !prst then .active else .offline

/-- A port interface at device reset (R21). -/
def PortIf.reset (defcfg prst : Bool) : PortIf :=
  ⟨PortState.reset defcfg prst, Profile.reset defcfg, none, [], [], .empty, 0⟩

/-- A region entry with valid = 0 and every other field 0 (R32). -/
def Region.blank : Region := ⟨false, 0, 0, 0, false, false, false, false, false, false⟩

/-- Region 0 with DEFCFG high (R32). -/
def Region.wholeSpace : Region := ⟨true, 0, 0xFFFFFF, 0xF, true, true, true, true, true, false⟩

/-- The region table at device reset (R32). -/
def regionsReset (defcfg : Bool) : Vector Region 16 :=
  if defcfg then (Vector.replicate 16 Region.blank).set 0 Region.wholeSpace else Vector.replicate 16 Region.blank

/-- The interlock table at device reset (R49). -/
def Interlock.reset : Interlock := ⟨Vector.replicate 8 none, Vector.replicate 4 [], [], []⟩

/-- The operation unit at device reset (R116). -/
def OpUnit.reset : OpUnit := ⟨Vector.replicate 4 none, []⟩

/-- The memory port at device reset (R142). -/
def MemPort.reset : MemPort := ⟨.settling, [], 64, 3⟩

/-- The maintenance link at device reset, by whether MCS_N is asserted (R179). -/
def Frame.reset (mcs : Bool) : Frame := if mcs then .deselectWait else .idle

/-- The state a device reset makes of the levels of the pins. Time and the BMC's clocking go on, and the queue of commands is not the
part's. -/
def State.resetWith (pins : Pins) (wire : List (Option Bool)) (clock : Clock) (choices : Nat) (pending : List Instr) : State where
  ports   := #v[PortIf.reset pins.defcfg pins.prst[0], PortIf.reset pins.defcfg pins.prst[1],
                PortIf.reset pins.defcfg pins.prst[2], PortIf.reset pins.defcfg pins.prst[3]]
  regions := regionsReset pins.defcfg
  table   := Interlock.reset
  ops     := OpUnit.reset
  mem     := MemPort.reset
  link    := Frame.reset pins.mcs
  shift   := []
  pins    := pins
  wire    := wire
  clock   := clock
  choices := choices
  pending := pending

/-- The part right after a device reset with DEFCFG low, no PRST_N line asserted, MCS_N and MEM_IDLE deasserted (log 5), at time 0. -/
def State.reset : State :=
  State.resetWith ⟨Vector.replicate 4 false, false, false, false⟩ [] ⟨0, 0⟩ 0 []

end Sys2Proof.Machine
end

