-- ==== Sys2Proof/Machine/Operands.lean ====
section
/-! DEFINITION. Operand forms: lines and blocks of an address, the codes of a request (R193), argument bytes (R196), and the
codes and bit placements of the response bytes (R195, R197). -/

namespace Sys2Proof.Machine

/-! ### Addresses and widths -/

/-- The line number of an address: ADDR ÷ 16 (00, Conventions). -/
def lineOf (a : Word) : Line := a.extractLsb' 4 28

/-- The block number of an address: ADDR ÷ 256 (R29). -/
def blockOf (a : Word) : Block := a.extractLsb' 8 24

/-- The line address: the line number multiplied by 16 (R84, R154). -/
def lineAddress (l : Line) : Word := l ++ (0 : BitVec 4)

/-- The size of a value in bits, w (R106). -/
def Width.bits : Width → Nat
  | .byte => 8
  | .half => 16
  | .word => 32

/-- The size of a value in bytes (R5, R37). -/
def Width.bytes : Width → Nat
  | .byte => 1
  | .half => 2
  | .word => 4

/-- The low WIDTH bytes of a value, upper bytes zero (R5). -/
def Width.low (w : Width) (x : Word) : Word := (x.setWidth w.bits).setWidth 32

/-- ADDR is a multiple of the width (R37). -/
def aligned (a : Word) (w : Width) : Bool := a.toNat % w.bytes == 0

/-! ### Codes of a request (R193) -/

/-- WIDTH; code 3 is undefined. -/
def Width.ofCode (c : BitVec 2) : Option Width :=
  match c.toNat with
  | 0 => some .byte
  | 1 => some .half
  | 2 => some .word
  | _ => none

/-- OP; code 7 is undefined. -/
def FusedOp.ofCode (c : BitVec 3) : Option FusedOp :=
  match c.toNat with
  | 0 => some .add
  | 1 => some .sub
  | 2 => some .setBits
  | 3 => some .clearBits
  | 4 => some .flipBits
  | 5 => some .swap
  | 6 => some .cswap
  | _ => none

/-- KIND, with OP for a FUSED and for no other kind (R3, R36); codes 6 and 7 are undefined. -/
def Kind.ofCodes (kind op : BitVec 3) : Option Kind :=
  match kind.toNat with
  | 0 => some .read
  | 1 => some .write
  | 2 => some .lockRead
  | 3 => some .releaseWrite
  | 4 => some .unlock
  | 5 => (FusedOp.ofCode op).map Kind.fused
  | _ => none

/-- The line a checked request concerns (R5). -/
def Checked.line (c : Checked) : Line := lineOf c.addr

/-- The downstream transfer of a checked request (R5, R130): the write of the low WIDTH bytes of DATA for a WRITE or
RELEASE-WRITE, and a read with data zero for every kind that reads. -/
def Checked.transfer (c : Checked) : Transfer :=
  match c.kind with
  | .write | .releaseWrite => ⟨.write, c.addr, c.width, c.width.low c.data⟩
  | .read | .lockRead | .unlock | .fused _ => ⟨.read, c.addr, c.width, 0⟩

/-! ### Outcomes and faults -/

/-- The outcome codes (R193). -/
def OutcomeCode.code : OutcomeCode → BitVec 4
  | .done       => 0
  | .fenced     => 1
  | .badRequest => 2
  | .misaligned => 3
  | .noRegion   => 4
  | .denied     => 5
  | .lockHeld   => 6
  | .limit      => 7
  | .notHeld    => 8
  | .broken     => 9
  | .deadlock   => 10
  | .memError   => 11
  | .memDown    => 12

/-- The fault kind of an outcome that is a fault; the others are not faults (R7, R154). -/
def OutcomeCode.fault : OutcomeCode → Option FaultKind
  | .badRequest => some .badRequest
  | .misaligned => some .misaligned
  | .noRegion   => some .noRegion
  | .denied     => some .denied
  | .lockHeld   => some .lockHeld
  | .limit      => some .limit
  | .notHeld    => some .notHeld
  | .done | .fenced | .broken | .deadlock | .memError | .memDown => none

/-- The fault-kind codes of the fault record (R193). -/
def FaultKind.code : FaultKind → BitVec 4
  | .badRequest  => 2
  | .misaligned  => 3
  | .noRegion    => 4
  | .denied      => 5
  | .lockHeld    => 6
  | .limit       => 7
  | .notHeld     => 8
  | .holdExpired => 13

/-- FLAGS on the response channel: N in bit 3, Z in bit 2, V in bit 1, C in bit 0 (R193). -/
def Flags.code (f : Flags) : BitVec 4 :=
  BitVec.ofBool f.n ++ BitVec.ofBool f.z ++ BitVec.ofBool f.v ++ BitVec.ofBool f.c

/-- PRIV (R193). -/
def privCode : Priv → BitVec 1
  | .supervisor => 0
  | .user       => 1

/-- WIDTH on the transfer channel (R194). -/
def Width.code : Width → BitVec 2
  | .byte => 0
  | .half => 1
  | .word => 2

/-- The status of a completion on the completion channel (R194). -/
def completionCode : CompletionStatus → BitVec 1
  | .ok        => 0
  | .dataError => 1

/-- The status a completion's bit names (R194). -/
def completionStatusOf (c : BitVec 1) : CompletionStatus := if c = 0 then .ok else .dataError

/-- The command that the completion channel's bits make: status 1 and read data 32 (R194). -/
def completionOfBits (status : BitVec 1) (data : Word) : Instr := .completion (completionStatusOf status) data

/-! ### State codes (R195) -/

/-- Port state code. -/
def PortState.code : PortState → Nat
  | .offline => 0
  | .active  => 1
  | .paused  => 2
  | .fenced  => 3

/-- Memory port state code. -/
def MemState.code : MemState → Nat
  | .settling => 0
  | .up       => 1
  | .down _   => 2

/-- DOWN cause code: 0 NONE, 1 TIMEOUT, 2 UNEXPECTED. -/
def MemState.causeCode : MemState → Nat
  | .settling         => 0
  | .up               => 0
  | .down .timeout    => 1
  | .down .unexpected => 2

/-- Interlock entry state code of a non-FREE entry. -/
def EntryWork.code : EntryWork → Nat
  | .acquiring _         => 1
  | .held _              => 2
  | .releasing _         => 3
  | .fusingFresh         => 4
  | .fusingUnderLock _ _ => 4
  | .fusingDetached      => 4

/-- Response-list entry state code. -/
def RespState.code : RespState → Nat
  | .awaitingGrant _ _ => 1
  | .atMemory          => 2
  | .inOperation       => 3
  | .parked            => 4
  | .entryWait         => 5
  | .handedOver        => 6
  | .complete _        => 7

/-- Held-line list entry state code. -/
def HeldState.code : HeldState → Nat
  | .acquiring => 1
  | .held      => 2
  | .releasing => 3
  | .broken _  => 4

/-- Fault record condition code. -/
def FaultRecord.code : FaultRecord → Nat
  | .empty   => 0
  | .first _ => 1
  | .two _ _ => 2

/-- Outstanding item origin code. -/
def Origin.code : Origin → Nat
  | .request _ _ .plain       => 0
  | .request _ _ (.acquire _) => 1
  | .request _ _ (.release _) => 2
  | .operationRead _          => 3
  | .writeBack _              => 4

/-- The port of an outstanding item; an operation's is the port of its record (R185). -/
def Origin.port : Origin → Port
  | .request p _ _   => p
  | .operationRead p => p
  | .writeBack p     => p

/-! ### Bytes -/

/-- The number `n` in a byte with its lowest bit at bit `at_`. -/
def field (n : Nat) (at_ : Nat) : Byte := BitVec.ofNat 8 n <<< at_

/-- One bit at bit `at_` of a byte. -/
def flag (b : Bool) (at_ : Nat) : Byte := if b then field 1 at_ else 0

/-- Two bytes, most significant first. -/
def bytes2 (x : BitVec 16) : List Byte := [x.extractLsb' 8 8, x.extractLsb' 0 8]

/-- Three bytes, most significant first. -/
def bytes3 (x : Block) : List Byte := [x.extractLsb' 16 8, x.extractLsb' 8 8, x.extractLsb' 0 8]

/-- Four bytes, most significant first. -/
def bytes4 (x : Word) : List Byte :=
  [x.extractLsb' 24 8, x.extractLsb' 16 8, x.extractLsb' 8 8, x.extractLsb' 0 8]

/-- Argument byte `i`, counted from 1 as R196 counts them. -/
def argByte (args : List Byte) (i : Nat) : Byte := args.getD (i - 1) 0

/-- A port named by an argument byte; a value outside 0..3 is BAD-ARG (R180). -/
def portArg (b : Byte) : Option Port := if h : b.toNat < 4 then some ⟨b.toNat, h⟩ else none

/-- An interlock entry named by an argument byte; a value outside 0..7 is BAD-ARG (R180). -/
def entryArg (b : Byte) : Option EntryIx := if h : b.toNat < 8 then some ⟨b.toNat, h⟩ else none

/-- A region named by an argument byte; a value outside 0..15 is BAD-ARG (R180). -/
def regionArg (b : Byte) : Option RegionIx := if h : b.toNat < 16 then some ⟨b.toNat, h⟩ else none

/-- The profile WRITE-PROFILE writes (R186, R196): flags in byte 2, hold limit in the low ten bits of bytes 3 and 4. -/
def profileArg (args : List Byte) : Profile where
  enabled      := (argByte args 2).getLsbD 7
  lockLimit    := (argByte args 2).extractLsb' 0 2
  holdLimit    := (argByte args 3 ++ argByte args 4).extractLsb' 0 10
  fusedAllowed := (argByte args 2).getLsbD 6
  capUser      := (argByte args 2).getLsbD 5

/-- The check byte of WRITE-PROFILE is the flags byte with every bit inverted (R186). -/
def profileCheck (args : List Byte) : Bool := argByte args 5 == ~~~ argByte args 2

/-- The region entry WRITE-REGION writes (R189, R196). -/
def regionFields (args : List Byte) : Region where
  valid    := (argByte args 2).getLsbD 7
  base     := argByte args 4 ++ argByte args 5 ++ argByte args 6
  limit    := argByte args 7 ++ argByte args 8 ++ argByte args 9
  mask     := (argByte args 3).extractLsb' 0 4
  sr       := (argByte args 2).getLsbD 5
  sw       := (argByte args 2).getLsbD 4
  ur       := (argByte args 2).getLsbD 3
  uw       := (argByte args 2).getLsbD 2
  lock     := (argByte args 2).getLsbD 1
  readthru := (argByte args 2).getLsbD 0

/-- The profile flags byte (R196). -/
def Profile.flagsByte (f : Profile) : Byte :=
  flag f.enabled 7 ||| flag f.fusedAllowed 6 ||| flag f.capUser 5 ||| f.lockLimit.setWidth 8

/-- The region flags byte (R196). -/
def Region.flagsByte (r : Region) : Byte :=
  flag r.valid 7 ||| flag r.sr 5 ||| flag r.sw 4 ||| flag r.ur 3 ||| flag r.uw 2 ||| flag r.lock 1 ||| flag r.readthru 0

end Sys2Proof.Machine
end

