-- ==== Sys2Proof/Machine/Ops.lean ====
section
/-! DEFINITION. The named operations over the state: one home for every read and write of a register, list or entry, and the
outputs and conditions the spec derives from them. -/

namespace Sys2Proof.Machine

/-! ### Reading and writing the parts of the state -/

/-- The interface of port `p`. -/
def State.port (s : State) (p : Port) : PortIf := s.ports[p]

/-- Changes the interface of port `p`. -/
def State.modPort (s : State) (p : Port) (f : PortIf → PortIf) : State :=
  { s with ports := s.ports.set p (f s.ports[p]) }

/-- Interlock entry `e`; `none` is FREE. -/
def State.entry (s : State) (e : EntryIx) : Option Entry := s.table.entries[e]

/-- Writes interlock entry `e`. -/
def State.setEntry (s : State) (e : EntryIx) (x : Option Entry) : State :=
  { s with table := { s.table with entries := s.table.entries.set e x } }

/-- The held-line list of port `p` (R50). -/
def State.heldLines (s : State) (p : Port) : List HeldLine := s.table.heldLines[p]

/-- Writes the held-line list of port `p`. -/
def State.setHeldLines (s : State) (p : Port) (l : List HeldLine) : State :=
  { s with table := { s.table with heldLines := s.table.heldLines.set p l } }

/-- Writes the handover list (R73). -/
def State.setHandover (s : State) (l : List HandoverItem) : State := { s with table := { s.table with handover := l } }

/-- Writes the entry-wait list (R75). -/
def State.setEntryWait (s : State) (l : List Port) : State := { s with table := { s.table with entryWait := l } }

/-- The operation record of port `p`, if one exists (R113). -/
def State.record (s : State) (p : Port) : Option OpRecord := s.ops.records[p]

/-- Writes the operation record of port `p`. -/
def State.setRecord (s : State) (p : Port) (r : Option OpRecord) : State :=
  { s with ops := { s.ops with records := s.ops.records.set p r } }

/-- Writes the write-back list (R120). -/
def State.setWriteBack (s : State) (l : List WriteBackItem) : State := { s with ops := { s.ops with writeBack := l } }

/-- Writes the memory port. -/
def State.setMem (s : State) (m : MemPort) : State := { s with mem := m }

/-- Writes the frame in progress; a byte position begins with none of its bits clocked (R174, R178). -/
def State.setLink (s : State) (l : Frame) : State := { s with link := l, shift := [] }

/-- Writes the levels of the pins. -/
def State.setPins (s : State) (x : Pins) : State := { s with pins := x }

/-! ### Time (log 2) -/

/-- How many quanta make a microsecond of REFCLK time. -/
def State.perMicrosecond (s : State) : Nat := s.clock.finer + 1

/-- A time in quanta as whole microseconds, a part of a microsecond counted whole (R80). -/
def State.wholeMicroseconds (s : State) (t : Nat) : Nat := (t + s.clock.finer) / s.perMicrosecond

/-! ### Port interface -/

/-- The count of the inbound queue, the held place included (R8, R9). -/
def PortIf.inbound (x : PortIf) : Nat := x.queue.length + (if x.held.isSome then 1 else 0)

/-- The port presents ready on its request channel (R9). -/
def PortIf.ready (x : PortIf) : Bool := x.state != .offline && decide (x.inbound < 8)

/-- A response-list entry blocks its port while it is PARKED, ENTRY-WAIT or HANDED-OVER (R12). -/
def RespState.blocks : RespState → Bool
  | .parked | .entryWait | .handedOver => true
  | .awaitingGrant _ _ | .atMemory | .inOperation | .complete _ => false

/-- A response-list entry waits on a lock or an entry while it is PARKED or ENTRY-WAIT (R17). -/
def RespState.waits : RespState → Bool
  | .parked | .entryWait => true
  | .awaitingGrant _ _ | .atMemory | .inOperation | .handedOver | .complete _ => false

/-- The port's transfer waits for grant, or is on the handover list (R160). -/
def RespState.waitsForGrant : RespState → Bool
  | .awaitingGrant _ _ | .handedOver => true
  | .atMemory | .inOperation | .parked | .entryWait | .complete _ => false

/-- The port is blocked (R12). -/
def State.blocked (s : State) (p : Port) : Bool :=
  (s.port p).resp.any (fun r => r.state.blocks) || (s.record p).isSome

/-- The port has a PARKED response-list entry (R94, R96). -/
def State.parked (s : State) (p : Port) : Bool := (s.port p).resp.any (fun r => decide (r.state = .parked))

/-- The port decides its head: the four conditions of R10. -/
def State.decides (s : State) (p : Port) : Bool :=
  ((s.port p).state == .active || (s.port p).state == .fenced) && !(s.port p).queue.isEmpty &&
    decide ((s.port p).resp.length < 4) && !s.blocked p

/-- An entry with zero data and zero flags (R7). -/
def Answer.plain (o : OutcomeCode) : Answer := ⟨o, 0, Flags.zero⟩

/-- Gives the response-list entry `id` a state; an entry no longer in the list is not found, so a late report is discarded
(R15). -/
def PortIf.setResp (x : PortIf) (id : Nat) (st : RespState) : PortIf :=
  { x with resp := x.resp.map (fun r => if r.id = id then { r with state := st } else r) }

/-- Gives response-list entry `id` of port `p` a state. -/
def State.setResp (s : State) (p : Port) (id : Nat) (st : RespState) : State := s.modPort p (fun x => x.setResp id st)

/-- Reports an answer to response-list entry `id` of port `p`, which becomes COMPLETE (R15). -/
def State.answer (s : State) (p : Port) (id : Nat) (a : Answer) : State := s.setResp p id (.complete a)

/-- Releases the held place of port `p` (R8). -/
def State.releaseHeldPlace (s : State) (p : Port) : State := s.modPort p (fun x => { x with held := none })

/-- The effective privilege of a request of a port (R38). -/
def PortIf.effective (x : PortIf) (r : Request) : Priv := if x.profile.capUser then .user else r.priv

/-- The response offered on the response channel: that of the front entry while it is COMPLETE (R2). -/
def State.offered (s : State) (p : Port) : Option (Tag × Answer) :=
  if (s.port p).state = .offline then none
  else match (s.port p).resp with
    | ⟨_, tag, _, .complete a⟩ :: _ => some (tag, a)
    | _ => none

/-- The response channel in bits: TAG 4, OUTCOME 4, DATA 32 and FLAGS 4 (R193). -/
def responseBits (x : Tag × Answer) : BitVec 4 × BitVec 4 × Word × BitVec 4 :=
  (x.1, x.2.outcome.code, x.2.data, x.2.flags.code)

/-! ### Held-line lists -/

/-- The own list entry of port `p` for line `l`: its state (R48). -/
def State.own (s : State) (p : Port) (l : Line) : Option HeldState :=
  ((s.heldLines p).find? (fun h => h.line == l)).map HeldLine.state

/-- A line joins the end of the list of port `p` in ACQUIRING (R51). -/
def State.joinHeld (s : State) (p : Port) (l : Line) : State :=
  s.setHeldLines p (s.heldLines p ++ [⟨l, .acquiring⟩])

/-- The entry for a line changes state and keeps its place (R50). -/
def State.changeHeld (s : State) (p : Port) (l : Line) (st : HeldState) : State :=
  s.setHeldLines p ((s.heldLines p).map (fun h => if h.line = l then { h with state := st } else h))

/-- The entry for a line leaves the list of port `p` (R51). -/
def State.leaveHeld (s : State) (p : Port) (l : Line) : State :=
  s.setHeldLines p ((s.heldLines p).filter (fun h => h.line != l))

/-! ### Interlock entries -/

/-- The line's entry: the non-FREE entry naming `l` (R47, R48). -/
def State.lineEntry (s : State) (l : Line) : Option EntryIx :=
  allEntries.find? (fun e => (s.entry e).any (fun x => x.line == l))

/-- The entry of line `l` while it is HELD by port `p`. -/
def State.heldEntry (s : State) (p : Port) (l : Line) : Option EntryIx :=
  allEntries.find? (fun e => (s.entry e).any (fun x =>
    x.line == l && x.owner == p && match x.work with | .held _ => true | _ => false))

/-- The lowest-numbered FREE entry (R47). -/
def State.lowestFree (s : State) : Option EntryIx := allEntries.find? (fun e => (s.entry e).isNone)

/-- The entry a decision may take: none where no entry is FREE or the entry-wait list is not empty (R54, R58, R75). -/
def State.entryToTake (s : State) : Option EntryIx := if s.table.entryWait.isEmpty then s.lowestFree else none

/-- The entry on whose waiter list port `p` stands (R94). -/
def State.waitingOn (s : State) (p : Port) : Option EntryIx :=
  allEntries.find? (fun e => (s.entry e).any (fun x => x.waiters.contains p))

/-- Changes the work of entry `e`; its line, owner and waiter list stay. -/
def State.setWork (s : State) (e : EntryIx) (w : EntryWork) : State :=
  match s.entry e with
  | none => s
  | some x => s.setEntry e (some { x with work := w })

/-- Writes the waiter list of entry `e`. -/
def State.setWaiters (s : State) (e : EntryIx) (l : List Port) : State :=
  match s.entry e with
  | none => s
  | some x => s.setEntry e (some { x with waiters := l })

/-- Entry `e` is taken for a line by a port: detached 0 and an empty waiter list (R47). -/
def State.takeEntry (s : State) (e : EntryIx) (l : Line) (p : Port) (w : EntryWork) : State :=
  s.setEntry e (some ⟨l, p, w, []⟩)

/-- An entry marked detached (R163). -/
def EntryWork.detached : EntryWork → Bool
  | .acquiring d => d
  | .releasing d => d
  | .fusingDetached => true
  | .held _ | .fusingFresh | .fusingUnderLock _ _ => false

/-- Port `p` leaves the waiter list of entry `e`, wherever it stands (R63). -/
def State.leaveWaiters (s : State) (p : Port) (e : EntryIx) : State :=
  match s.entry e with
  | none => s
  | some x => s.setEntry e (some { x with waiters := x.waiters.filter (fun q => q != p) })

/-- Port `p` leaves the entry-wait list and every waiter list; the others keep their order (R63, R77, R159). -/
def State.leaveLists (s : State) (p : Port) : State :=
  (allEntries.foldl (fun t e => t.leaveWaiters p e) s).setEntryWait (s.table.entryWait.filter (fun q => q != p))

/-! ### The part as a whole -/

/-- The memory port is DOWN. -/
def State.memDown (s : State) : Bool := match s.mem.state with | .down _ => true | .settling | .up => false

/-- A fault record is occupied (R155). -/
def FaultRecord.occupied : FaultRecord → Bool
  | .empty => false
  | .first _ => true
  | .two _ _ => true

/-- ALERT_N is asserted (R172). -/
def State.alert (s : State) : Bool := allPorts.any (fun p => (s.port p).fault.occupied) || s.memDown

/-- The part is quiet (R33). -/
def State.quiet (s : State) : Bool :=
  allPorts.all (fun p => (s.port p).state != .active) && s.mem.outstanding.isEmpty && s.table.handover.isEmpty &&
    s.ops.writeBack.isEmpty && allPorts.all (fun p => (s.record p).isNone)

/-- The transfer offered on the transfer channel: the outstanding item not yet accepted (R130, R132). -/
def State.offeredTransfer (s : State) : Option Transfer :=
  (s.mem.outstanding.find? (fun i => !i.accepted)).map OutItem.transfer

/-- The transfer channel in bits: direction 1 (1 WRITE), address 32, width 2 and data 32 (R194). -/
def transferBits (t : Transfer) : BitVec 1 × Word × BitVec 2 × Word :=
  (match t.dir with | .read => 0 | .write => 1, t.addr, t.width.code, t.data)

/-- SETTLING with MEM_IDLE asserted becomes UP at that event, be it the one that enters SETTLING (R143). -/
def State.settle (s : State) : State :=
  match s.mem.state with
  | .settling => if s.pins.memIdle then s.setMem { s.mem with state := .up } else s
  | .up => s
  | .down _ => s

end Sys2Proof.Machine
end

