-- ==== Sys2Proof/Machine/Link.lean ====
section
/-! DEFINITION. The maintenance link: the frame in progress, its point of effect and its reply (section 9.1), the frame family
MCS_N_FALLING, MCS_N_RISING, BAD_COMMAND and BYTE_RECEIVED, and the bits of a byte position (R174). -/

namespace Sys2Proof.Machine

/-- What a command answers: its status, and its response bytes, sent only with OK (R177). -/
structure Reply where
  status   : Status
  response : List Byte
  deriving DecidableEq, Repr

/-- A reply of the status alone (R177). -/
def Reply.just (st : Status) : Reply := ⟨st, []⟩

/-- A reply of OK with response bytes (R177). -/
def Reply.report (bytes : List Byte) : Reply := ⟨.ok, bytes⟩

/-- The bytes of a reply: the status byte, then the response bytes (R177). -/
def Reply.bytes (r : Reply) : List Byte := r.status.code :: r.response

/-- The reply is built whole, and the link enters REPLY (R176, R177). -/
def State.enterReply (s : State) (r : Reply) : State := s.setLink (.reply r.bytes 0)

/-- The arguments of a command at its point of effect: `b` is the byte that brings the count to its argument count (R176). -/
def Frame.lastArgument (f : Frame) (c : MaintCommand) (b : Byte) : Option (List Byte) :=
  match f with
  | .arguments d received => if d = c ∧ received.length + 1 = c.argCount then some (received ++ [b]) else none
  | .idle | .deselectWait | .command | .reply _ _ | .trailing => none

/-- A command with arguments is judged and carried out whole at its point of effect, and at no other event (R176). -/
def State.atLastArgument (s : State) (c : MaintCommand) (b : Byte) (run : List Byte → State → State × Reply) : State :=
  match s.link.lastArgument c b with
  | none => s
  | some args => (run args s).1.enterReply (run args s).2

/-- A command without arguments takes effect at the receipt of its command byte (R175, R176). -/
def State.atCommandByte (s : State) (run : State → State × Reply) : State :=
  if s.link = .command then (run s).1.enterReply (run s).2 else s

/-- An argument that names a port is judged first (R180). -/
def State.withPort (s : State) (b : Byte) (run : Port → State × Reply) : State × Reply :=
  match portArg b with
  | none => (s, .just .badArg)
  | some p => run p

/-- An argument that names an interlock entry is judged first (R180). -/
def State.withEntry (s : State) (b : Byte) (run : EntryIx → State × Reply) : State × Reply :=
  match entryArg b with
  | none => (s, .just .badArg)
  | some e => run e

/-- An argument that names a region is judged first (R180). -/
def State.withRegion (s : State) (b : Byte) (run : RegionIx → State × Reply) : State × Reply :=
  match regionArg b with
  | none => (s, .just .badArg)
  | some g => run g

/-! ### Bytes of a frame -/

/-- The byte sent on MDO in the byte position that stands (R174, table of frame phases); in IDLE MDO is not driven. -/
def Frame.mdo : Frame → Option Byte
  | .idle => none
  | .deselectWait | .command | .arguments _ _ | .trailing => some 0
  | .reply bytes sent => some (bytes.getD sent 0)

/-- The phase of the position after a byte that reaches no point of effect (R175, R176, R177). None where the phase takes no byte,
and for a byte that would reach a point of effect, which is another event (log 4). -/
def Frame.received (f : Frame) (b : Byte) : Option Frame :=
  match f with
  | .idle | .deselectWait | .trailing => none
  | .command =>
    match MaintCommand.ofByte b with
    | none => none
    | some c => if c.argCount = 0 then none else some (.arguments c [])
  | .arguments c got => if got.length + 1 < c.argCount then some (.arguments c (got ++ [b])) else none
  | .reply bytes sent => some (if sent + 1 < bytes.length then .reply bytes (sent + 1) else .trailing)

/-- MCS_N takes a level. -/
def State.setMcs (s : State) (level : Bool) : State := s.setPins { s.pins with mcs := level }

/-- R173: a frame begins where the link is IDLE. -/
def Frame.begun : Frame → Frame
  | .idle => .command
  | f => f

/-- R173: MCS_N falls. -/
def execMcsNFalling (s : State) : Host.Outcome State Fault Refusal :=
  .next (if s.pins.mcs then s else (s.setMcs true).setLink s.link.begun)

/-- R178: MCS_N rises, which ends the frame in any phase. -/
def execMcsNRising (s : State) : Host.Outcome State Fault Refusal :=
  .next (if s.pins.mcs then (s.setMcs false).setLink .idle else s)

/-- R175: an unknown command byte is answered BAD-COMMAND, with the status as the reply's one byte. -/
def execBadCommand (b : Byte) (s : State) : Host.Outcome State Fault Refusal :=
  .next (if s.link = .command ∧ MaintCommand.ofByte b = none then s.enterReply (.just .badCommand) else s)

/-- R174..R177: a byte position completes without reaching a point of effect. -/
def execByteReceived (b : Byte) (s : State) : Host.Outcome State Fault Refusal :=
  .next (match s.link.received b with
    | none => s
    | some l => s.setLink l)

/-! ### Bits of a byte position -/

/-- Eight bits make one byte, most significant bit first (R174). -/
def byteOfBits (bits : List Bool) : Byte := bits.foldl (fun b x => b <<< 1 ||| flag x 0) 0

/-- The row of the table that a maintenance command is at its point of effect, with the byte received there (R176). -/
def MaintCommand.row (c : MaintCommand) (b : Byte) : Instr :=
  match c with
  | .readStatus       => .readStatus
  | .readPort         => .readPort b
  | .readRegion       => .readRegion b
  | .readLock         => .readLock b
  | .readMemoryPort   => .readMemoryPort
  | .writeProfile     => .writeProfile b
  | .pausePort        => .pausePort b
  | .resumePort       => .resumePort b
  | .ackFault         => .ackFault b
  | .writeRegion      => .writeRegion b
  | .breakLock        => .breakLock b
  | .setResponseLimit => .setResponseLimit b
  | .recoverMemory    => .recoverMemory

/-- The row of the table that the receipt of a byte is, by the phase of the link (R175, R176). -/
def Frame.row (f : Frame) (b : Byte) : Instr :=
  match f with
  | .command =>
    match MaintCommand.ofByte b with
    | none => .badCommand b
    | some c => if c.argCount = 0 then c.row b else .byteReceived b
  | .arguments c got => if got.length + 1 = c.argCount then c.row b else .byteReceived b
  | .idle | .deselectWait | .reply _ _ | .trailing => .byteReceived b

/-- The phases that count byte positions. In IDLE clock edges are ignored, DESELECT-WAIT takes no byte, and TRAILING only sends $00
(R173, R177, R179). -/
def Frame.counts : Frame → Bool
  | .command | .arguments _ _ | .reply _ _ => true
  | .idle | .deselectWait | .trailing => false

/-- One cycle of MCLK: MDI shows `x` at the rising edge (R174). The bit joins the byte in progress, and the eighth makes the receipt
of the byte, which becomes the next command taken (log 8). -/
def State.clockBit (s : State) (x : Bool) : State :=
  if s.link.counts then
    let bits := s.shift ++ [x]
    if bits.length < 8 then { s with shift := bits }
    else { s with shift := bits, pending := s.pending ++ [s.link.row (byteOfBits bits)] }
  else s

/-- What the BMC does with MCLK in one quantum of time (log 8). -/
def State.clockLink (s : State) : State :=
  match s.wire with
  | [] => s
  | none :: rest => { s with wire := rest }
  | some x :: rest => ({ s with wire := rest } : State).clockBit x

/-- The level on MDO, where it is driven: of the byte sent in the position, most significant bit first, the bit that follows those
clocked (R174). The last stays until the byte is received. -/
def State.mdo (s : State) : Option Bool := s.link.mdo.map (fun b => b.getMsbD (min s.shift.length 7))

end Sys2Proof.Machine
end

