-- ==== Sys2Proof/Machine/Interlock.lean ====
section
/-! DEFINITION. The interlock table: the interlock stage kind by kind (section 3.3), the wait-for check (section 5.1), carrying a
result out with the memory-state check (R42), re-decision (R44), and freeing with handover (section 3.6) and the entry-wait
list (section 3.7). -/

namespace Sys2Proof.Machine

/-! ### Results of the interlock stage -/

/-- The action proposed with "proceed to memory" (R41). -/
inductive Action where
  | plain
  | acquire (e : EntryIx)
  | release (e : EntryIx)
  | fresh (e : EntryIx) (op : FusedOp)
  | underLock (e : EntryIx) (op : FusedOp)
  deriving DecidableEq, Repr

/-- The results of step 7 (R41). `giveUp` is BROKEN with the list entry leaving (R56, R57); `unlock` is "proceed without memory". -/
inductive StageResult where
  | refuse (o : OutcomeCode)
  | giveUp
  | unlock (e : EntryIx)
  | park (e : EntryIx)
  | waitEntry
  | proceed (a : Action)
  deriving DecidableEq, Repr

/-! ### The wait-for check -/

/-- The entry ends the chain whatever its owner does: FUSING FRESH, or detached (R94). -/
def EntryWork.endsChain : EntryWork → Bool
  | .fusingFresh => true
  | w => w.detached

/-- The chain of owners from entry `e` comes back to port `p` (R94). It looks at no more than `fuel` entries; four are enough
(R95). -/
def State.chainCloses (s : State) (p : Port) : Nat → EntryIx → Bool
  | 0, _ => false
  | fuel + 1, e =>
    match s.entry e with
    | none => false
    | some x =>
      if x.owner = p then true
      else if x.work.endsChain then false
      else if s.parked x.owner then
        match s.waitingOn x.owner with
        | none => false
        | some e' => s.chainCloses p fuel e'
      else false

/-- Parking port `p` on entry `e` after the wait-for check, or DEADLOCK (R61, R93). -/
def State.tryPark (s : State) (p : Port) (e : EntryIx) : StageResult :=
  if s.chainCloses p 4 e then .refuse .deadlock else .park e

/-! ### The interlock stage, kind by kind -/

/-- A READ (R52); READTHRU is the one carried from the request's region (R31). -/
def State.stageRead (s : State) (p : Port) (c : Checked) : StageResult :=
  match s.own p c.line with
  | some .acquiring | some .held | some .releasing => .proceed .plain
  | some (.broken _) | none =>
    match s.lineEntry c.line with
    | none => .proceed .plain
    | some e => if c.readthru then .proceed .plain else s.tryPark p e

/-- A WRITE (R53). -/
def State.stageWrite (s : State) (p : Port) (c : Checked) : StageResult :=
  match s.own p c.line with
  | some (.broken _) => .refuse .broken
  | some .acquiring | some .held | some .releasing => .proceed .plain
  | none =>
    match s.lineEntry c.line with
    | none => .proceed .plain
    | some e => s.tryPark p e

/-- A LOCK-READ (R54); `avail` is the entry it may take. -/
def State.stageLockRead (s : State) (p : Port) (c : Checked) (avail : Option EntryIx) : StageResult :=
  if (s.own p c.line).isSome then .refuse .lockHeld
  else if (s.port p).profile.lockLimit.toNat ≤ (s.heldLines p).length then .refuse .limit
  else match s.lineEntry c.line with
    | some e => s.tryPark p e
    | none =>
      match avail with
      | none => .waitEntry
      | some e => .proceed (.acquire e)

/-- A RELEASE-WRITE (R56). -/
def State.stageReleaseWrite (s : State) (p : Port) (c : Checked) : StageResult :=
  match s.own p c.line with
  | some (.broken _) => .giveUp
  | some .held =>
    match s.heldEntry p c.line with
    | some e => .proceed (.release e)
    | none => .refuse .notHeld
  | some .acquiring | some .releasing | none => .refuse .notHeld

/-- An UNLOCK (R57). -/
def State.stageUnlock (s : State) (p : Port) (c : Checked) : StageResult :=
  match s.own p c.line with
  | some .held =>
    match s.heldEntry p c.line with
    | some e => .unlock e
    | none => .refuse .notHeld
  | some (.broken _) => .giveUp
  | some .acquiring | some .releasing | none => .refuse .notHeld

/-- A FUSED (R58); `avail` is the entry it may take. -/
def State.stageFused (s : State) (p : Port) (c : Checked) (op : FusedOp) (avail : Option EntryIx) : StageResult :=
  match s.own p c.line with
  | some (.broken _) => .refuse .broken
  | some .held =>
    match s.heldEntry p c.line with
    | some e => .proceed (.underLock e op)
    | none => .refuse .notHeld
  | some .acquiring | some .releasing => .refuse .notHeld
  | none =>
    match s.lineEntry c.line with
    | some e => s.tryPark p e
    | none =>
      match avail with
      | none => .waitEntry
      | some e => .proceed (.fresh e op)

/-- Step 7 (R41). -/
def State.stage (s : State) (p : Port) (c : Checked) (avail : Option EntryIx) : StageResult :=
  match c.kind with
  | .read         => s.stageRead p c
  | .write        => s.stageWrite p c
  | .lockRead     => s.stageLockRead p c avail
  | .releaseWrite => s.stageReleaseWrite p c
  | .unlock       => s.stageUnlock p c
  | .fused op     => s.stageFused p c op avail

/-! ### Carrying a result out -/

/-- Whether a result comes from a decision, a handover walk or an entry-wait gift: it settles where the response-list entry is
found and where a transfer waits (R11, R44, R76). -/
inductive Via where
  | decision
  | handover
  | gift
  deriving DecidableEq, Repr

/-- A request at its decision or re-decision, with its response-list entry. -/
structure Asking where
  port    : Port
  id      : Nat
  request : Request
  checked : Checked
  via     : Via
  deriving DecidableEq, Repr

/-- The request's response-list entry in a state: created at the end of the list by a decision (R11), changed where it stands
by a re-decision (R14). -/
def Asking.enter (a : Asking) (st : RespState) (s : State) : State :=
  match a.via with
  | .decision => s.modPort a.port (fun x => { x with resp := x.resp ++ [⟨a.id, a.request.tag, a.request.kind, st⟩] })
  | .handover | .gift => s.setResp a.port a.id st

/-- The request stays in the inbound queue as the held place (R8, R11). -/
def Asking.hold (a : Asking) (s : State) : State :=
  s.modPort a.port (fun x => { x with held := some ⟨a.request, a.id, a.checked⟩ })

/-- Its transfer waits for grant: on the handover list after a handover (R69, R70), else as the port's candidate (R55, R76). -/
def Asking.send (a : Asking) (use : TransferUse) (s : State) : State :=
  match a.via with
  | .handover =>
    a.enter .handedOver (s.setHandover (s.table.handover ++ [⟨a.port, .request a.id use, a.checked.transfer⟩]))
  | .decision | .gift => a.enter (.awaitingGrant use a.checked.transfer) s

/-- The record of a fused operation that starts (R113, R114). -/
def Asking.newRecord (a : Asking) (op : FusedOp) (mode : FusedMode) (e : EntryIx) : OpRecord where
  op       := op
  width    := a.checked.width
  addr     := a.checked.addr
  operand  := a.checked.width.low a.checked.data
  newValue := a.checked.width.low a.checked.data2
  phase    := .reading (match a.via with | .handover => .handover | .decision | .gift => .candidate)
  mode     := mode
  entry    := e
  detached := false
  respId   := a.id

/-- A fused operation starts: its record is created and its read waits (R59, R70, R114). -/
def Asking.startOperation (a : Asking) (op : FusedOp) (mode : FusedMode) (e : EntryIx) (s : State) : State :=
  let t := a.enter .inOperation (s.setRecord a.port (some (a.newRecord op mode e)))
  match a.via with
  | .handover => t.setHandover (t.table.handover ++ [⟨a.port, .operationRead, a.checked.transfer⟩])
  | .decision | .gift => t

/-- The UNDER-LOCK entry keeps its timer, with expiry-due 0 (R59). -/
def EntryWork.underLock : EntryWork → EntryWork
  | .held remaining => .fusingUnderLock remaining false
  | w => w

/-- An entry's work becomes UNDER-LOCK (R59). -/
def State.enterUnderLock (s : State) (e : EntryIx) : State :=
  match s.entry e with
  | none => s
  | some x => s.setEntry e (some { x with work := x.work.underLock })

/-- The action of a request that proceeds to memory (R55, R56, R59). -/
def Asking.act (a : Asking) (act : Action) (s : State) : State :=
  let l := a.checked.line
  match act with
  | .plain          => a.send .plain s
  | .acquire e      => a.send (.acquire e) ((s.takeEntry e l a.port (.acquiring false)).joinHeld a.port l)
  | .release e      => a.send (.release e) ((s.setWork e (.releasing false)).changeHeld a.port l .releasing)
  | .fresh e op     => a.startOperation op .fresh e (s.takeEntry e l a.port .fusingFresh)
  | .underLock e op => a.startOperation op .underLock e (s.enterUnderLock e)

/-- The request becomes COMPLETE with an outcome, zero data and zero flags (R43). -/
def Asking.refuse (a : Asking) (o : OutcomeCode) (s : State) : State := a.enter (.complete (Answer.plain o)) s

/-- The result of step 7 is carried out, one that needs memory after step 8 (R41, R42). An UNLOCK's entry is freed by the
decision afterwards (R57). -/
def Asking.carryOut (a : Asking) (r : StageResult) (s : State) : State :=
  match r with
  | .refuse o    => a.refuse o s
  | .giveUp      => a.refuse .broken (s.leaveHeld a.port a.checked.line)
  | .unlock _    => a.refuse .done (s.leaveHeld a.port a.checked.line)
  | .park e      => a.enter .parked (a.hold (s.setWaiters e (((s.entry e).map Entry.waiters).getD [] ++ [a.port])))
  | .waitEntry   => a.enter .entryWait (a.hold (s.setEntryWait (s.table.entryWait ++ [a.port])))
  | .proceed act => if s.memDown then a.refuse .memDown s else a.act act s

/-! ### Re-decision, handover and the entry-wait list -/

/-- The waiting request of port `q` is re-decided at steps 7 and 8, with entry `e` to take (R44). Its held place is released,
unless it parks (R8, R76). -/
def State.redecide (s : State) (q : Port) (e : EntryIx) (via : Via) : State :=
  match (s.port q).held with
  | none => s
  | some h =>
    let t := s.releaseHeldPlace q
    (⟨q, h.id, h.request, h.checked, via⟩ : Asking).carryOut (t.stage q h.checked (some e)) t

/-- Free entry `e` goes down the ports of the entry-wait list until one takes it (R72, R76). -/
def giveEntry (e : EntryIx) : List Port → State → State
  | [], s => s
  | q :: rest, s =>
    let t := (s.setEntryWait rest).redecide q e .gift
    match t.entry e with
    | none => giveEntry e rest t
    | some _ => t

/-- The handover walk over the waiters of the freed entry `e` (R69, R70, R71): each waiter reached is re-decided; one that takes
the entry keeps the waiters behind it, and where none does the entry is FREE and goes to the entry-wait list (R72). -/
def handoverWalk (e : EntryIx) : List Port → State → State
  | [], s => giveEntry e s.table.entryWait s
  | q :: rest, s =>
    let t := s.redecide q e .handover
    match t.entry e with
    | none => handoverWalk e rest t
    | some _ => t.setWaiters e rest

/-- Entry `e` is freed with handover, whole (R68). -/
def State.freeEntry (s : State) (e : EntryIx) : State :=
  match s.entry e with
  | none => s
  | some x => handoverWalk e x.waiters (s.setEntry e none)

end Sys2Proof.Machine
end

