-- ==== Sys2Proof/Machine/Teardown.lean ====
section
/-! DEFINITION. Fault reports (section 8.1), and the fence and drop teardowns in four stages (sections 8.2, 8.4; R127, R128). -/

namespace Sys2Proof.Machine

/-! ### Reports -/

/-- A report taken into a port's fault record (R156): only an ACTIVE or PAUSED port takes one; the second fences the port. -/
def PortIf.takeReport (x : PortIf) (r : Report) : PortIf :=
  match x.state, x.fault with
  | .active, .empty | .paused, .empty => { x with fault := .first r }
  | .active, .first r1 | .paused, .first r1 => { x with fault := .two r1 r.kind, state := .fenced }
  | _, _ => x

/-- A report taken into a port's record fences it (R156). -/
def PortIf.fencedBy (x : PortIf) : Bool :=
  match x.state, x.fault with
  | .active, .first _ | .paused, .first _ => true
  | _, _ => false

/-- What an event leaves: the state, and the ports it fenced, whose teardown follows once the event has been taken whole
(R157, log 10). -/
structure After where
  state  : State
  fenced : List Port
  deriving DecidableEq, Repr

/-- An event that raised no report. -/
def After.of (s : State) : After := ⟨s, []⟩

/-- One event goes on with what `f` does. -/
def After.andThen (a : After) (f : State → After) : After := ⟨(f a.state).state, a.fenced ++ (f a.state).fenced⟩

/-- A fault is reported to the record of port `p` (R154). -/
def State.report (s : State) (p : Port) (r : Report) : After :=
  ⟨s.modPort p (fun x => x.takeReport r), if (s.port p).fencedBy then [p] else []⟩

/-- The report of a decision's fault (R154); an outcome that is no fault reports nothing. -/
def State.reportOutcome (s : State) (p : Port) (r : Request) (o : OutcomeCode) : After :=
  match o.fault with
  | none => .of s
  | some k => s.report p ⟨k, r.addr, some ⟨r.tag, r.kind, (s.port p).effective r⟩⟩

/-! ### The four stages of a teardown -/

/-- FENCED, the answer of work a teardown takes out (R159, R160). -/
def fencedAnswer : RespState := .complete (Answer.plain .fenced)

/-- Stage 1 (R159): the waiting request leaves its list, is answered FENCED, and its held place is released. -/
def State.teardownWaiting (s : State) (p : Port) : State :=
  (s.leaveLists p).modPort p (fun x =>
    { x with held := none, resp := x.resp.map (fun r => if r.state.waits then { r with state := fencedAnswer } else r) })

/-- Stage 2 (R160), transfers of requests: work AWAITING-GRANT or HANDED-OVER is answered FENCED, and every handover item of
the port leaves. -/
def State.teardownTransfers (s : State) (p : Port) : State :=
  (s.setHandover (s.table.handover.filter (fun i => i.port != p))).modPort p (fun x =>
    { x with resp := x.resp.map (fun r => if r.state.waitsForGrant then { r with state := fencedAnswer } else r) })

/-- The operation read of a record is not yet granted (R115, R127). -/
def OpRecord.readWaits (r : OpRecord) : Bool :=
  match r.phase with
  | .reading .candidate | .reading .handover => true
  | .reading .outstanding | .writePending _ _ _ | .writing _ _ _ => false

/-- Stage 2 (R160, R127), operations: one whose read is not yet granted is cancelled and answered FENCED. -/
def State.teardownOperation (s : State) (p : Port) : State :=
  match s.record p with
  | none => s
  | some r => if r.readWaits then (s.setRecord p none).setResp p r.respId fencedAnswer else s

/-- The transfer of an acquire or release of entry `e` by port `p` is in the outstanding list. -/
def State.transferOutstanding (s : State) (p : Port) (e : EntryIx) : Bool :=
  s.mem.outstanding.any (fun i =>
    match i.origin with
    | .request q _ (.acquire f) | .request q _ (.release f) => q == p && f == e
    | .request _ _ .plain | .operationRead _ | .writeBack _ => false)

/-- The operation of entry `e` of port `p` goes on. -/
def State.operationGoesOn (s : State) (p : Port) (e : EntryIx) : Bool := (s.record p).any (fun r => r.entry == e)

/-- An UNDER-LOCK operation's record is marked detached with its entry (R127, R161). -/
def State.detachRecord (s : State) (p : Port) : State :=
  match s.record p with
  | none => s
  | some r => s.setRecord p (some { r with detached := true })

/-- Stage 3 (R161) for one entry: freed with handover, marked detached, or left as it is. -/
def State.teardownEntry (p : Port) (s : State) (e : EntryIx) : State :=
  match s.entry e with
  | none => s
  | some x =>
    if x.owner = p then
      match x.work with
      | .held _ => s.freeEntry e
      | .acquiring false => if s.transferOutstanding p e then s.setWork e (.acquiring true) else s.freeEntry e
      | .releasing false => if s.transferOutstanding p e then s.setWork e (.releasing true) else s.freeEntry e
      | .fusingUnderLock _ _ =>
        if s.operationGoesOn p e then (s.setWork e .fusingDetached).detachRecord p else s.freeEntry e
      | .fusingFresh => if s.operationGoesOn p e then s else s.freeEntry e
      | .acquiring true | .releasing true | .fusingDetached => s
    else s

/-- The four stages, taken whole; stage 3 takes the entries in order of index, E0 first (R159..R161). -/
def State.teardown (s : State) (p : Port) : State :=
  let t := ((s.teardownWaiting p).teardownTransfers p).teardownOperation p
  (allEntries.foldl (State.teardownEntry p) t).setHeldLines p []

/-- The fence teardowns that follow an event (R157), in the order in which the event fenced the ports. -/
def After.settled (a : After) : State := a.fenced.foldl State.teardown a.state

/-- A drop empties the port: queue, held place, response list and fault record (R167); profile and serial stay. -/
def PortIf.dropped (x : PortIf) : PortIf :=
  { x with held := none, queue := [], resp := [], fault := .empty }

/-- Port `p` goes to OFFLINE and is dropped (R167). -/
def State.drop (s : State) (p : Port) : State :=
  ((s.modPort p (fun x => { x with state := .offline })).teardown p).modPort p PortIf.dropped

end Sys2Proof.Machine
end

