-- ==== Sys2Proof/Machine/Resets.lean ====
section
/-! DEFINITION. The reset family: DEVICE_RESET, PRST_N_ASSERTED and PRST_N_DEASSERTED (R19, R21, R22, R32, R49, R116, R142, R149,
R179). -/

namespace Sys2Proof.Machine

/-- The level of PRST_N of port `p` (R22). -/
def State.prst (s : State) (p : Port) : Bool := s.pins.prst[p]

/-- PRST_N of port `p` takes a level. -/
def State.setPrst (s : State) (p : Port) (level : Bool) : State := s.setPins { s.pins with prst := s.pins.prst.set p level }

/-- R21: every block takes its reset state, by the level of DEFCFG sampled and the levels of the pins; SETTLING passes to UP at
this event where MEM_IDLE is asserted already (R143; log 6). -/
def execDeviceReset (defcfg : Bool) (s : State) : Host.Outcome State Fault Refusal :=
  .next (State.resetWith { s.pins with defcfg := defcfg } s.wire s.clock s.choices s.pending).settle

/-- R22: the line is asserted, and the port goes to OFFLINE and is dropped, once, at the assertion. -/
def execPrstNAsserted (p : Port) (s : State) : Host.Outcome State Fault Refusal :=
  .next (if s.prst p then s else (s.setPrst p true).drop p)

/-- The state of a port whose reset line is deasserted (R22): from OFFLINE to ACTIVE where its profile is enabled. -/
def PortIf.released (x : PortIf) : PortIf :=
  if x.state = .offline ∧ x.profile.enabled then { x with state := .active } else x

/-- R22: the line is deasserted. -/
def execPrstNDeasserted (p : Port) (s : State) : Host.Outcome State Fault Refusal :=
  .next (if s.prst p then (s.setPrst p false).modPort p PortIf.released else s)

end Sys2Proof.Machine
end

