-- ==== Sys2Proof/Machine/Flags.lean ====
section
/-! DEFINITION. The result and flags of the seven fused operations (R106..R111). -/

namespace Sys2Proof.Machine

/-- What a fused operation computes at its read: the result R, whether it is written back, and the flags. -/
structure Fused (w : Nat) where
  result : BitVec w
  writes : Bool
  flags  : Flags
  deriving DecidableEq, Repr

/-- N and Z of a value: bit w−1, and whether it is zero. -/
def signZero {w : Nat} (x : BitVec w) (v c : Bool) : Flags := ⟨x.msb, x == 0, v, c⟩

/-- ADD's flags, from R = M + S (R107): V where M and S have the same sign and R the other; C where the sum without the modulo
is 2^w or more. -/
def addFlags {w : Nat} (m s : BitVec w) : Flags :=
  signZero (m + s) (m.msb == s.msb && (m + s).msb != m.msb) (decide (2 ^ w ≤ m.toNat + s.toNat))

/-- SUB's flags, from R = M − S (R108): V where M and S differ in sign and R differs in sign from M; C is the borrow. -/
def subFlags {w : Nat} (m s : BitVec w) : Flags :=
  signZero (m - s) (m.msb != s.msb && (m - s).msb != m.msb) (decide (m.toNat < s.toNat))

/-- R107: ADD. -/
def fuseAdd {w : Nat} (m s : BitVec w) : Fused w := ⟨m + s, true, addFlags m s⟩

/-- R108: SUB. -/
def fuseSub {w : Nat} (m s : BitVec w) : Fused w := ⟨m - s, true, subFlags m s⟩

/-- R109: SETBITS. -/
def fuseSetBits {w : Nat} (m s : BitVec w) : Fused w := ⟨m ||| s, true, signZero (m ||| s) false false⟩

/-- R109: CLEARBITS. -/
def fuseClearBits {w : Nat} (m s : BitVec w) : Fused w := ⟨m &&& ~~~ s, true, signZero (m &&& ~~~ s) false false⟩

/-- R109: FLIPBITS. -/
def fuseFlipBits {w : Nat} (m s : BitVec w) : Fused w := ⟨m ^^^ s, true, signZero (m ^^^ s) false false⟩

/-- R110: SWAP; the flags describe the value taken out of memory. -/
def fuseSwap {w : Nat} (m s : BitVec w) : Fused w := ⟨s, true, signZero m false false⟩

/-- R111: CSWAP; it writes T only where M equals S, and the flags are those of M − S in both cases. -/
def fuseCswap {w : Nat} (m s t : BitVec w) : Fused w := ⟨t, m == s, subFlags m s⟩

/-- The operation OP on values of width w. -/
def FusedOp.compute (op : FusedOp) {w : Nat} (m s t : BitVec w) : Fused w :=
  match op with
  | .add       => fuseAdd m s
  | .sub       => fuseSub m s
  | .setBits   => fuseSetBits m s
  | .clearBits => fuseClearBits m s
  | .flipBits  => fuseFlipBits m s
  | .swap      => fuseSwap m s
  | .cswap     => fuseCswap m s t

/-- The operation OP at a request's width: M, S and T are the low w bits of the read data, DATA and DATA2 (R106). -/
def FusedOp.atWidth (op : FusedOp) (width : Width) (m s t : Word) : Fused width.bits :=
  op.compute (m.setWidth width.bits) (s.setWidth width.bits) (t.setWidth width.bits)

end Sys2Proof.Machine
end

