-- ==== Sys2Proof/Machine/Finish.lean ====
section
/-! DEFINITION. Expiry of a hold (R83, R84), the finish of a fused operation (R119, R121, R123, R124), and the handing of a
completed or failed transfer to its origin (R137, R138, R140). -/

namespace Sys2Proof.Machine

/-- The report of an expiry (R84): the line address, and no tag, request kind or privilege. -/
def expiryReport (l : Line) : Report := ⟨.holdExpired, lineAddress l, none⟩

/-- The expiry of entry `e` (R83): the owner's line becomes BROKEN, the entry is freed with handover, HOLD-EXPIRED is reported. -/
def State.expire (s : State) (e : EntryIx) : After :=
  match s.entry e with
  | none => .of s
  | some x => ((s.changeHeld x.owner x.line (.broken .timeout)).freeEntry e).report x.owner (expiryReport x.line)

/-- The entry of a finished operation leaves FUSING by its mode and detached flag (R121): a FRESH or detached one is freed, an
UNDER-LOCK one returns to HELD with the time it has left, and a deferred expiry is taken at that return (R81). -/
def State.releaseOperation (s : State) (e : EntryIx) : After :=
  match (s.entry e).map Entry.work with
  | some (.fusingUnderLock remaining false) => .of (s.setWork e (.held remaining))
  | some (.fusingUnderLock remaining true)  => (s.setWork e (.held remaining)).expire e
  | some .fusingFresh | some .fusingDetached => .of (s.freeEntry e)
  | some (.acquiring _) | some (.held _) | some (.releasing _) | none => .of s

/-- The record of port `p` finishes with an answer: it leaves the operation unit, and its entry is released (R119, R121). -/
def State.finish (s : State) (p : Port) (r : OpRecord) (a : Answer) : After :=
  ((s.setRecord p none).answer p r.respId a).releaseOperation r.entry

/-- What a transfer brings to its origin: its completion with status OK and the value read, or its failure. -/
inductive Brought where
  | ok (data : Word)
  | failed
  deriving DecidableEq, Repr

/-- A release write, a WRITE or a write-back: DONE or MEM-ERROR with zero data (R7). -/
def Brought.wrote : Brought → Answer
  | .ok _   => Answer.plain .done
  | .failed => Answer.plain .memError

/-- A plain READ or WRITE, or an acquire read that makes the lock: DONE with the value read for a read (R7, R137, R138). -/
def Brought.plainAnswer (b : Brought) (t : Transfer) : Answer :=
  match b, t.dir with
  | .ok d, .read => ⟨.done, t.width.low d, Flags.zero⟩
  | .ok _, .write => Answer.plain .done
  | .failed, _ => Answer.plain .memError

/-- The hold limit of a port's profile in quanta (R79). -/
def State.holdTime (s : State) (p : Port) : Nat := (s.port p).profile.holdLimit.toNat * s.perMicrosecond

/-- An acquire read comes back (R64, R65, R164). -/
def State.acquireBack (s : State) (p : Port) (id : Nat) (e : EntryIx) (t : Transfer) (b : Brought) : State :=
  match s.entry e with
  | none => s.answer p id (b.plainAnswer t)
  | some x =>
    if x.work.detached then (s.answer p id (Answer.plain .fenced)).freeEntry e
    else match b with
      | .ok _ => ((s.setWork e (.held (s.holdTime p))).changeHeld p x.line .held).answer p id (b.plainAnswer t)
      | .failed => ((s.leaveHeld p x.line).answer p id (b.plainAnswer t)).freeEntry e

/-- A release write comes back (R66, R165). -/
def State.releaseBack (s : State) (p : Port) (id : Nat) (e : EntryIx) (b : Brought) : State :=
  match s.entry e with
  | none => s.answer p id b.wrote
  | some x =>
    if x.work.detached then (s.answer p id b.wrote).freeEntry e
    else ((s.leaveHeld p x.line).answer p id b.wrote).freeEntry e

/-- The operation read of port `p` completes OK (R118, R119): M, R and the flags are computed; the write-back joins its list,
or a CSWAP whose compare failed finishes. -/
def State.operationReadDone (s : State) (p : Port) (r : OpRecord) (data : Word) : After :=
  let x := r.op.atWidth r.width data r.operand r.newValue
  let m := r.width.low data
  let result := x.result.setWidth 32
  if x.writes then
    .of ((s.setRecord p (some { r with phase := .writePending m result x.flags })).setWriteBack
      (s.ops.writeBack ++ [⟨p, ⟨.write, r.addr, r.width, result⟩⟩]))
  else s.finish p r ⟨.done, m, x.flags⟩

/-- An operation read comes back (R118, R119, R123). -/
def State.operationReadBack (s : State) (p : Port) (b : Brought) : After :=
  match s.record p with
  | none => .of s
  | some r =>
    match b with
    | .ok d => s.operationReadDone p r d
    | .failed => s.finish p r (Answer.plain .memError)

/-- The answer of a record whose write-back completes OK: DONE with M and the flags stored at the read (R121). -/
def OpRecord.doneAnswer (r : OpRecord) : Answer :=
  match r.phase with
  | .writing old _ flags | .writePending old _ flags => ⟨.done, old, flags⟩
  | .reading _ => Answer.plain .done

/-- A write-back comes back (R121, R124). -/
def State.writeBackBack (s : State) (p : Port) (b : Brought) : After :=
  match s.record p with
  | none => .of s
  | some r =>
    match b with
    | .ok _ => s.finish p r r.doneAnswer
    | .failed => s.finish p r (Answer.plain .memError)

/-- A transfer that left the outstanding list is handed to its origin (R132, R137, R138). -/
def State.hand (s : State) (i : OutItem) (b : Brought) : After :=
  match i.origin with
  | .request p id .plain       => .of (s.answer p id (b.plainAnswer i.transfer))
  | .request p id (.acquire e) => .of (s.acquireBack p id e i.transfer b)
  | .request p id (.release e) => .of (s.releaseBack p id e b)
  | .operationRead p           => s.operationReadBack p b
  | .writeBack p               => s.writeBackBack p b

/-- Transfers are handed to their origins as failed, oldest first (R140). -/
def failAll (a : After) (l : List OutItem) : After := l.foldl (fun x i => x.andThen (fun s => s.hand i .failed)) a

/-- The passage to DOWN: the outstanding list is emptied, and each of its transfers is handed to its origin as failed with the
memory port already DOWN (R140, R145). -/
def State.goDown (s : State) (cause : DownCause) : After :=
  failAll (.of (s.setMem { s.mem with state := .down cause, outstanding := [] })) s.mem.outstanding

/-- The response limit in quanta (R139). -/
def State.limitTime (s : State) : Nat := s.mem.limit.toNat * s.perMicrosecond

/-- The front outstanding transfer has reached the response limit (R139). -/
def State.limitReached (s : State) : Bool :=
  s.mem.state == .up && match s.mem.outstanding with
    | [] => false
    | i :: _ => decide (s.limitTime ≤ s.clock.now - i.issueTime)

end Sys2Proof.Machine
end

