-- ==== Sys2Proof/Machine/Timers.lean ====
section
/-! DEFINITION. The hold-timer family: HOLD_EXPIRY and EXPIRY_DUE (chapter 4), and the passing of REFCLK time. -/

namespace Sys2Proof.Machine

/-- Hold suspended: the owner is PAUSED (R78, R80). -/
def State.suspended (s : State) (x : Entry) : Bool := (s.port x.owner).state == .paused

/-- A HELD entry whose timer counts and stands at zero (R83; log 18). -/
def State.holdExpires (s : State) (e : EntryIx) : Bool :=
  (s.entry e).any (fun x => x.work == .held 0 && !s.suspended x)

/-- An UNDER-LOCK entry whose timer counts and stands at zero with expiry-due still 0 (R81; log 18). -/
def State.expiryFallsDue (s : State) (e : EntryIx) : Bool :=
  (s.entry e).any (fun x => x.work == .fusingUnderLock 0 false && !s.suspended x)

/-- R83: the hold of entry `e` expires, where its timer stands at zero; a fence follows the expiry (R84). -/
def execHoldExpiry (e : EntryIx) (s : State) : Host.Outcome State Fault Refusal :=
  .next (if s.holdExpires e then (s.expire e).settled else s)

/-- R81: expiry-due is set, and the entry, its waiters, the list entry and the operation are left as they were. -/
def execExpiryDue (e : EntryIx) (s : State) : Host.Outcome State Fault Refusal :=
  .next (if s.expiryFallsDue e then s.setWork e (.fusingUnderLock 0 true) else s)

/-- A timer after one quantum: it counts down to zero (R80, R81). -/
def EntryWork.tick : EntryWork → EntryWork
  | .held n => .held (n - 1)
  | .fusingUnderLock n due => .fusingUnderLock (n - 1) due
  | w => w

/-- One quantum for entry `e`: its timer counts unless its owner is PAUSED (R80). -/
def State.tickEntry (s : State) (e : EntryIx) : State :=
  match s.entry e with
  | none => s
  | some x => if s.suspended x then s else s.setEntry e (some { x with work := x.work.tick })

/-- The timers count one quantum of REFCLK time. -/
def State.countQuantum (s : State) : State :=
  { allEntries.foldl State.tickEntry s with clock := { s.clock with now := s.clock.now + 1 } }

/-- One quantum of REFCLK time passes, with at most one cycle of MCLK in it (log 2, 8). -/
def State.tick (s : State) : State := s.countQuantum.clockLink

end Sys2Proof.Machine
end

