-- ==== Sys2Proof/Machine/Inspection.lean ====
section
/-! DEFINITION. The inspection family: the five read commands (section 9.3) and their response layouts (R197). -/

namespace Sys2Proof.Machine

/-- Member `i` of a list reported front first, or zero beyond its length (R197). -/
def place (f : α → Byte) (l : List α) (i : Nat) : Byte := (l[i]?.map f).getD 0

/-- One bit per port, P0's lowest at bit `at_`. -/
def portFlags (f : Port → Bool) (at_ : Nat) : Byte := flag (f 0) at_ ||| flag (f 1) (at_ + 1) ||| flag (f 2) (at_ + 2) ||| flag (f 3) (at_ + 3)

/-! ### READ-STATUS -/

/-- READ-STATUS byte 1: port states, two bits each. -/
def State.statusPorts (s : State) : Byte :=
  field (s.port 0).state.code 0 ||| field (s.port 1).state.code 2 ||| field (s.port 2).state.code 4 ||| field (s.port 3).state.code 6

/-- READ-STATUS byte 6: the entry-wait list, two bits per member, front lowest. -/
def State.statusEntryWait (s : State) : Byte :=
  let l := s.table.entryWait
  place (fun p => field p.val 0) l 0 ||| place (fun p => field p.val 2) l 1 ||| place (fun p => field p.val 4) l 2 |||
    place (fun p => field p.val 6) l 3

/-- READ-STATUS byte 7: bit n set where En is not FREE. -/
def State.statusEntries (s : State) : Byte :=
  allEntries.foldl (fun b e => b ||| flag (s.entry e).isSome e.val) 0

/-- The seven response bytes of READ-STATUS (R181, R197). -/
def State.statusBytes (s : State) : List Byte :=
  [ s.statusPorts,
    portFlags (fun p => (s.port p).fault.occupied) 0 ||| field s.mem.state.code 4 ||| flag s.alert 6 ||| flag s.quiet 7,
    field s.mem.outstanding.length 0 ||| field s.table.handover.length 4,
    field s.ops.writeBack.length 0 ||| portFlags (fun p => (s.record p).isSome) 4,
    field s.table.entryWait.length 0,
    s.statusEntryWait,
    s.statusEntries ]

/-- R181: READ-STATUS. -/
def execReadStatus (s : State) : Host.Outcome State Fault Refusal :=
  .next (s.atCommandByte (fun t => (t, .report t.statusBytes)))

/-! ### READ-PORT -/

/-- READ-PORT byte 1. -/
def State.portByte1 (s : State) (p : Port) : Byte :=
  field (s.port p).state.code 0 ||| flag (s.prst p) 2 ||| flag (s.blocked p) 3 ||| flag (s.record p).isSome 4

/-- READ-PORT bytes 9 to 16: the fault record (R182); all zero for an empty one. A HOLD-EXPIRED report has no tag, request kind and
privilege, which the marker tells; what byte 12 holds then no rule says, and 0 is the model's choice (DESIGN CHOICE, log 19). -/
def faultBytes (f : FaultRecord) : List Byte :=
  let report (cond : Nat) (r : Report) (second : Byte) : List Byte :=
    [field cond 0 ||| flag r.culprit.isSome 7, r.kind.code.setWidth 8, second,
      match r.culprit with
      | none => 0
      | some c => c.tag.setWidth 8 ||| (c.kind.setWidth 8 <<< 4) ||| ((privCode c.priv).setWidth 8 <<< 7)] ++ bytes4 r.addr
  match f with
  | .empty => [0, 0, 0, 0, 0, 0, 0, 0]
  | .first r => report f.code r 0
  | .two r second => report f.code r (second.code.setWidth 8)

/-- The cause bit of a held-line entry: 1 MAINTENANCE. It has a meaning for BROKEN only, and no rule says how it is sent for another
state, where 0 is the model's choice (DESIGN CHOICE, log 19). -/
def HeldState.causeBit : HeldState → Bool
  | .broken .maintenance => true
  | .broken .timeout | .acquiring | .held | .releasing => false

/-- The five bytes of one held-line entry: state and cause, then the line number in 32 bits. -/
def heldBytes (h : Option HeldLine) : List Byte :=
  match h with
  | none => [0, 0, 0, 0, 0]
  | some h => (field h.state.code 0 ||| flag h.state.causeBit 4) :: bytes4 (h.line.setWidth 32)

/-- The 27 response bytes of READ-PORT (R182, R197). -/
def State.portBytes (s : State) (p : Port) : List Byte :=
  let x := s.port p
  let st := fun (i at_ : Nat) => place (fun r : RespEntry => field r.state.code at_) x.resp i
  [s.portByte1 p, x.profile.flagsByte] ++ bytes2 (x.profile.holdLimit.setWidth 16) ++
  [field x.inbound 0 ||| flag x.held.isSome 4, field x.resp.length 0, st 0 4 ||| st 1 0, st 2 4 ||| st 3 0] ++
  faultBytes x.fault ++ [field (s.heldLines p).length 0] ++ heldBytes (s.heldLines p)[0]? ++ heldBytes (s.heldLines p)[1]?

/-- R182: READ-PORT. -/
def execReadPort (b : Byte) (s : State) : Host.Outcome State Fault Refusal :=
  .next (s.atLastArgument .readPort b (fun args t =>
    t.withPort (argByte args 1) (fun p => (t, .report (t.portBytes p)))))

/-! ### READ-REGION -/

/-- The eight response bytes of READ-REGION (R183, R197). -/
def Region.bytes (r : Region) : List Byte := [r.flagsByte, r.mask.setWidth 8] ++ bytes3 r.base ++ bytes3 r.limit

/-- R183: READ-REGION. -/
def execReadRegion (b : Byte) (s : State) : Host.Outcome State Fault Refusal :=
  .next (s.atLastArgument .readRegion b (fun args t =>
    t.withRegion (argByte args 1) (fun g => (t, .report t.regions[g].bytes))))

/-! ### READ-LOCK -/

/-- Hold remaining in whole microseconds, zero where absent (R78, R80, R184). -/
def State.holdReported (s : State) (x : Entry) : Nat :=
  match x.work with
  | .held n | .fusingUnderLock n _ => s.wholeMicroseconds n
  | .acquiring _ | .releasing _ | .fusingFresh | .fusingDetached => 0

/-- The mode bit: 1 for UNDER-LOCK (R197). -/
def EntryWork.modeBit : EntryWork → Bool
  | .fusingUnderLock _ _ | .fusingDetached => true
  | .acquiring _ | .held _ | .releasing _ | .fusingFresh => false

/-- The expiry-due bit, zero where absent (R78). -/
def EntryWork.dueBit : EntryWork → Bool
  | .fusingUnderLock _ due => due
  | .acquiring _ | .held _ | .releasing _ | .fusingFresh | .fusingDetached => false

/-- A hold timer is present (R78, R82). -/
def EntryWork.timed : EntryWork → Bool
  | .held _ | .fusingUnderLock _ _ => true
  | .acquiring _ | .releasing _ | .fusingFresh | .fusingDetached => false

/-- The twelve response bytes of READ-LOCK (R184, R197); a FREE entry reads all zero. -/
def State.lockBytes (s : State) (e : EntryIx) : List Byte :=
  match s.entry e with
  | none => List.replicate 12 0
  | some x =>
    [ field x.work.code 0 ||| flag x.work.modeBit 3 ||| flag x.work.detached 4 ||| flag x.work.dueBit 5 |||
        flag (x.work.timed && s.suspended x) 6,
      field x.owner.val 0 ] ++ bytes4 (x.line.setWidth 32) ++ bytes2 ((BitVec.ofNat 10 (s.holdReported x)).setWidth 16) ++
    [ field x.waiters.length 0, place (fun p => field p.val 0) x.waiters 0, place (fun p => field p.val 0) x.waiters 1,
      place (fun p => field p.val 0) x.waiters 2 ]

/-- R184: READ-LOCK. -/
def execReadLock (b : Byte) (s : State) : Host.Outcome State Fault Refusal :=
  .next (s.atLastArgument .readLock b (fun args t =>
    t.withEntry (argByte args 1) (fun e => (t, .report (t.lockBytes e)))))

/-! ### READ-MEMORY-PORT -/

/-- One outstanding item (R197). -/
def OutItem.byte (i : OutItem) : Byte :=
  field i.origin.code 0 ||| field i.origin.port.val 3 ||| flag (i.transfer.dir == .write) 5 ||| flag i.accepted 6

/-- The seven response bytes of READ-MEMORY-PORT (R185, R197). -/
def State.memoryBytes (s : State) : List Byte :=
  let item := place OutItem.byte s.mem.outstanding
  [ field s.mem.state.code 0 ||| field s.mem.state.causeCode 2 ||| flag s.pins.memIdle 4 ||| field s.mem.pointer.val 6,
    s.mem.limit, field s.mem.outstanding.length 0, item 0, item 1, item 2, item 3 ]

/-- R185: READ-MEMORY-PORT. -/
def execReadMemoryPort (s : State) : Host.Outcome State Fault Refusal :=
  .next (s.atCommandByte (fun t => (t, .report t.memoryBytes)))

end Sys2Proof.Machine
end

