-- ==== Sys2Proof/Machine/Memory.lean ====
section
/-! DEFINITION. The memory-port family: GRANT, TRANSFER_ACCEPTANCE, COMPLETION, RESPONSE_LIMIT_EXPIRY and PASSAGE_TO_UP
(chapter 7). -/

namespace Sys2Proof.Machine

/-! ### The arbiter -/

/-- The oldest AWAITING-GRANT entry of a response list, with its transfer (R135). -/
def oldestAwaiting : List RespEntry → Option (Nat × TransferUse × Transfer)
  | [] => none
  | ⟨id, _, _, .awaitingGrant use t⟩ :: _ => some (id, use, t)
  | _ :: rest => oldestAwaiting rest

/-- The operation read of a record (R117). -/
def OpRecord.readTransfer (r : OpRecord) : Transfer := ⟨.read, r.addr, r.width, 0⟩

/-- A piece of waiting work the arbiter can choose (R134). -/
inductive Work where
  | writeBack (i : WriteBackItem) (rest : List WriteBackItem)
  | handover (i : HandoverItem) (rest : List HandoverItem)
  | entry (p : Port) (id : Nat) (use : TransferUse) (t : Transfer)
  | operation (p : Port) (t : Transfer)
  deriving DecidableEq, Repr

/-- The candidate of port `p` (R135): its oldest AWAITING-GRANT entry, else its operation read that waits as the candidate. -/
def State.candidate (s : State) (p : Port) : Option Work :=
  match oldestAwaiting (s.port p).resp with
  | some (id, use, t) => some (.entry p id use t)
  | none =>
    match s.record p with
    | none => none
    | some r => if r.phase = .reading .candidate then some (.operation p r.readTransfer) else none

/-- The ports from the one after the pointer, round to the pointer itself (R134). -/
def roundRobin (pointer : Port) : List Port := [pointer + 1, pointer + 2, pointer + 3, pointer]

/-- The arbiter's choice: the write-back list, then the handover list, then the port candidates in turn (R134). -/
def State.choice (s : State) : Option Work :=
  match s.ops.writeBack, s.table.handover with
  | i :: rest, _ => some (.writeBack i rest)
  | [], i :: rest => some (.handover i rest)
  | [], [] => (roundRobin s.mem.pointer).findSome? s.candidate

/-- The memory port can take a grant: UP, room in the list, and nothing offered and waiting for acceptance (R133). -/
def State.grantOpen (s : State) : Bool :=
  s.mem.state == .up && decide (s.mem.outstanding.length < 4) && s.mem.outstanding.all OutItem.accepted

/-- A transfer joins the outstanding list and is offered, its issue time this event (R130, R133). -/
def State.issue (s : State) (t : Transfer) (o : Origin) : State :=
  s.setMem { s.mem with outstanding := s.mem.outstanding ++ [⟨t, s.clock.now, false, o⟩] }

/-- The round-robin pointer is set to the port whose candidate is granted (R136). -/
def State.setPointer (s : State) (p : Port) : State := s.setMem { s.mem with pointer := p }

/-- The record of port `p` enters a phase at a grant (R115). -/
def State.setPhase (s : State) (p : Port) (f : OpPhase → OpPhase) : State :=
  match s.record p with
  | none => s
  | some r => s.setRecord p (some { r with phase := f r.phase })

/-- WRITE-PENDING becomes WRITING at the grant of the write-back (R115). -/
def OpPhase.granted : OpPhase → OpPhase
  | .writePending m r f => .writing m r f
  | x => x

/-- The chosen work is taken from where it waited, passes to its granted state and is issued (R133). -/
def State.grantWork (s : State) (w : Work) : State :=
  match w with
  | .writeBack i rest => ((s.setWriteBack rest).setPhase i.port OpPhase.granted).issue i.transfer (.writeBack i.port)
  | .handover ⟨p, .request id use, t⟩ rest => ((s.setHandover rest).setResp p id .atMemory).issue t (.request p id use)
  | .handover ⟨p, .operationRead, t⟩ rest =>
    ((s.setHandover rest).setPhase p (fun _ => .reading .outstanding)).issue t (.operationRead p)
  | .entry p id use t => ((s.setResp p id .atMemory).setPointer p).issue t (.request p id use)
  | .operation p t => ((s.setPhase p (fun _ => .reading .outstanding)).setPointer p).issue t (.operationRead p)

/-- R133: the arbiter grants one transfer, where the conditions hold. -/
def execGrant (s : State) : Host.Outcome State Fault Refusal :=
  .next (if s.grantOpen then
      match s.choice with
      | none => s
      | some w => s.grantWork w
    else s)

/-! ### Acceptance, completion and expiry -/

/-- R130: the offered transfer is accepted, and the controller holds it. -/
def execTransferAcceptance (s : State) : Host.Outcome State Fault Refusal :=
  .next (s.setMem { s.mem with outstanding := s.mem.outstanding.map (fun i => { i with accepted := true }) })

/-- What a completion brings by its status (R131, R137, R138). -/
def CompletionStatus.brings (status : CompletionStatus) (data : Word) : Brought :=
  match status with
  | .ok => .ok data
  | .dataError => .failed

/-- The response limit passes to the new front; where that has already reached it, the limit expires at this same event (R139,
R141). -/
def State.moveLimit (s : State) : After := if s.limitReached then s.goDown .timeout else .of s

/-- A completion offered while the memory port is UP: matched to the oldest transfer (R131), or unexpected where no accepted
transfer is outstanding (R145). -/
def State.completeFront (s : State) (b : Brought) : After :=
  match s.mem.outstanding with
  | [] => s.goDown .unexpected
  | i :: rest =>
    if (i :: rest).any OutItem.accepted then
      ((s.setMem { s.mem with outstanding := rest }).hand i b).andThen State.moveLimit
    else s.goDown .unexpected

/-- R131: a completion is handed to the origin of the oldest transfer; in SETTLING and DOWN it is discarded (R144). -/
def execCompletion (status : CompletionStatus) (data : Word) (s : State) : Host.Outcome State Fault Refusal :=
  .next (match s.mem.state with
    | .up => (s.completeFront (CompletionStatus.brings status data)).settled
    | .settling | .down _ => s)

/-- R140: the response limit expires, and every outstanding transfer fails. -/
def execResponseLimitExpiry (s : State) : Host.Outcome State Fault Refusal :=
  .next (if s.limitReached then (s.goDown .timeout).settled else s)

/-- R143: MEM_IDLE presents a level; asserted in SETTLING it takes the memory port UP, and in UP and DOWN it changes nothing
else (log 7). -/
def execPassageToUp (memIdle : Bool) (s : State) : Host.Outcome State Fault Refusal :=
  .next (s.setPins { s.pins with memIdle := memIdle }).settle

end Sys2Proof.Machine
end

