-- ==== Sys2Proof/Machine/PortCommands.lean ====
section
/-! DEFINITION. The port and fault commands: WRITE-PROFILE, PAUSE-PORT, RESUME-PORT and ACK-FAULT (section 9.4; R20, R23, R24,
R26, R27, R158). -/

namespace Sys2Proof.Machine

/-! ### WRITE-PROFILE -/

/-- Step 2 of R20: the hold limit is not 0, the lock limit is in 1..2, and the check byte agrees. -/
def profileAcceptable (args : List Byte) : Bool :=
  (profileArg args).holdLimit != 0 && ((profileArg args).lockLimit == 1 || (profileArg args).lockLimit == 2) &&
    profileCheck args

/-- The port state after an accepted WRITE-PROFILE, where it causes no drop (R27). -/
def stateAfterProfile (st : PortState) (enabled prst : Bool) : PortState :=
  match st with
  | .offline => if enabled && !prst then .paused else .offline
  | .active | .paused | .fenced => st

/-- Step 4 of R20: all five fields are replaced together, and the port state changes as R27 gives. -/
def State.acceptProfile (s : State) (p : Port) (f : Profile) : State :=
  let t := s.modPort p (fun x => { x with profile := f, state := stateAfterProfile x.state f.enabled (s.prst p) })
  if (s.port p).state = .paused ∧ f.enabled = false then t.drop p else t

/-- WRITE-PROFILE at its point of effect, judged in R20's order after the port number (R180, R186). -/
def State.writeProfile (s : State) (p : Port) (args : List Byte) : State × Reply :=
  if (s.port p).state = .active ∨ (s.port p).state = .fenced then (s, .just .wrongState)
  else if profileAcceptable args = false then (s, .just .badArg)
  else if (profileArg args).enabled ∧ (profileArg args).lockLimit.toNat < (s.heldLines p).length then (s, .just .busy)
  else (s.acceptProfile p (profileArg args), .just .ok)

/-- R20, R186: WRITE-PROFILE. -/
def execWriteProfile (b : Byte) (s : State) : Host.Outcome State Fault Refusal :=
  .next (s.atLastArgument .writeProfile b (fun args t =>
    t.withPort (argByte args 1) (fun p => t.writeProfile p args)))

/-! ### PAUSE-PORT and RESUME-PORT -/

/-- The held place becomes an undecided request at the front of the queue, and the waiting entry leaves the response list
(R17). -/
def PortIf.withdrawn (x : PortIf) : PortIf :=
  { x with
    held := none
    queue := (x.held.map HeldPlace.request).toList ++ x.queue
    resp := x.resp.filter (fun r => !r.state.waits) }

/-- A PARKED or ENTRY-WAIT request is withdrawn (R17, R102, R103). -/
def State.withdraw (s : State) (p : Port) : State := (s.leaveLists p).modPort p PortIf.withdrawn

/-- PAUSE-PORT at its point of effect (R23). -/
def State.pausePort (s : State) (p : Port) : State × Reply :=
  match (s.port p).state with
  | .active => ((s.modPort p (fun x => { x with state := .paused })).withdraw p, .just .ok)
  | .paused => (s, .just .ok)
  | .fenced | .offline => (s, .just .wrongState)

/-- R23, R187: PAUSE-PORT. -/
def execPausePort (b : Byte) (s : State) : Host.Outcome State Fault Refusal :=
  .next (s.atLastArgument .pausePort b (fun args t => t.withPort (argByte args 1) t.pausePort))

/-- RESUME-PORT at its point of effect (R24). -/
def State.resumePort (s : State) (p : Port) : State × Reply :=
  match (s.port p).state with
  | .paused => (s.modPort p (fun x => { x with state := .active }), .just .ok)
  | .active => (s, .just .ok)
  | .fenced | .offline => (s, .just .wrongState)

/-- R24, R187: RESUME-PORT. -/
def execResumePort (b : Byte) (s : State) : Host.Outcome State Fault Refusal :=
  .next (s.atLastArgument .resumePort b (fun args t => t.withPort (argByte args 1) t.resumePort))

/-! ### ACK-FAULT -/

/-- The record is emptied, and a FENCED port goes to PAUSED (R26). -/
def PortIf.acknowledged (x : PortIf) : PortIf :=
  { x with fault := .empty, state := match x.state with | .fenced => .paused | st => st }

/-- ACK-FAULT at its point of effect (R158). -/
def State.ackFault (s : State) (p : Port) : State × Reply :=
  if (s.port p).fault.occupied then (s.modPort p PortIf.acknowledged, .just .ok) else (s, .just .wrongState)

/-- R158, R188: ACK-FAULT. -/
def execAckFault (b : Byte) (s : State) : Host.Outcome State Fault Refusal :=
  .next (s.atLastArgument .ackFault b (fun args t => t.withPort (argByte args 1) t.ackFault))

end Sys2Proof.Machine
end

