-- ==== Sys2Proof/Machine/TableCommands.lean ====
section
/-! DEFINITION. The table and memory commands: WRITE-REGION, BREAK-LOCK, SET-RESPONSE-LIMIT and RECOVER-MEMORY (section 9.5; R33,
R91, R147, R148). -/

namespace Sys2Proof.Machine

/-! ### WRITE-REGION -/

/-- A region entry takes all the written fields at once (R28). -/
def State.setRegion (s : State) (g : RegionIx) (r : Region) : State := { s with regions := s.regions.set g r }

/-- WRITE-REGION at its point of effect: a valid entry with its base above its limit, then quiet (R33, R189). -/
def State.writeRegion (s : State) (g : RegionIx) (r : Region) : State × Reply :=
  if r.valid ∧ r.limit < r.base then (s, .just .badArg)
  else if s.quiet = false then (s, .just .notQuiet)
  else (s.setRegion g r, .just .ok)

/-- R33, R189: WRITE-REGION. -/
def execWriteRegion (b : Byte) (s : State) : Host.Outcome State Fault Refusal :=
  .next (s.atLastArgument .writeRegion b (fun args t =>
    t.withRegion (argByte args 1) (fun g => t.writeRegion g (regionFields args))))

/-! ### BREAK-LOCK -/

/-- BREAK-LOCK at its point of effect: a HELD entry is broken with cause MAINTENANCE and freed with handover, with no fault;
any other is BUSY (R91). -/
def State.breakLock (s : State) (e : EntryIx) : State × Reply :=
  match s.entry e with
  | some ⟨l, owner, .held _, _⟩ => ((s.changeHeld owner l (.broken .maintenance)).freeEntry e, .just .ok)
  | some ⟨_, _, _, _⟩ | none => (s, .just .busy)

/-- R91, R190: BREAK-LOCK. -/
def execBreakLock (b : Byte) (s : State) : Host.Outcome State Fault Refusal :=
  .next (s.atLastArgument .breakLock b (fun args t => t.withEntry (argByte args 1) t.breakLock))

/-! ### SET-RESPONSE-LIMIT and RECOVER-MEMORY -/

/-- SET-RESPONSE-LIMIT at its point of effect (R148). -/
def State.setResponseLimit (s : State) (v : Byte) : State × Reply :=
  if v = 0 then (s, .just .badArg)
  else if s.mem.outstanding.isEmpty = false then (s, .just .busy)
  else (s.setMem { s.mem with limit := v }, .just .ok)

/-- R148, R191: SET-RESPONSE-LIMIT. -/
def execSetResponseLimit (b : Byte) (s : State) : Host.Outcome State Fault Refusal :=
  .next (s.atLastArgument .setResponseLimit b (fun args t => t.setResponseLimit (argByte args 1)))

/-- RECOVER-MEMORY at its point of effect: DOWN becomes SETTLING with cause NONE, and UP at once where MEM_IDLE is asserted
(R147, R192). -/
def State.recoverMemory (s : State) : State × Reply :=
  match s.mem.state with
  | .down _ => ((s.setMem { s.mem with state := .settling }).settle, .just .ok)
  | .settling | .up => (s, .just .wrongState)

/-- R147, R192: RECOVER-MEMORY. -/
def execRecoverMemory (s : State) : Host.Outcome State Fault Refusal :=
  .next (s.atCommandByte State.recoverMemory)

end Sys2Proof.Machine
end

