-- ==== Sys2Proof/Machine/HeadCheck.lean ====
section
/-! DEFINITION. The head check, steps 1 to 6 (sections 2.1, 2.2). -/

namespace Sys2Proof.Machine

/-- A region entry that meets the three conditions of R29 for a port and a block. -/
def Region.covers (r : Region) (p : Port) (b : Block) : Bool :=
  r.valid && decide (r.base ≤ b) && decide (b ≤ r.limit) && r.mask.getLsbD p

/-- The matching region: the lowest-numbered entry that meets the three conditions (R29). -/
def State.matchRegion (s : State) (p : Port) (b : Block) : Option Region := s.regions.toList.find? (fun r => r.covers p b)

/-- The read right the effective privilege selects (R30). -/
def Region.mayRead (r : Region) : Priv → Bool
  | .supervisor => r.sr
  | .user       => r.ur

/-- The write right the effective privilege selects (R30). -/
def Region.mayWrite (r : Region) : Priv → Bool
  | .supervisor => r.sw
  | .user       => r.uw

/-- The region and the profile permit the kind (R30). -/
def Region.permits (r : Region) (f : Profile) (k : Kind) (v : Priv) : Bool :=
  match k with
  | .read         => r.mayRead v
  | .write        => r.mayWrite v
  | .lockRead     => r.mayRead v && r.mayWrite v && r.lock
  | .releaseWrite => r.mayWrite v
  | .unlock       => true
  | .fused _      => r.mayRead v && r.mayWrite v && r.lock && f.fusedAllowed

/-- What steps 1 to 6 give: an outcome, or the request handed to the interlock stage (R40). -/
inductive HeadResult where
  | refused (o : OutcomeCode)
  | passed (c : Checked)
  deriving DecidableEq, Repr

/-- Steps 5 and 6 (R39, R40). -/
def State.checkRights (s : State) (p : Port) (r : Request) (k : Kind) (w : Width) : HeadResult :=
  match s.matchRegion p (blockOf r.addr) with
  | none => .refused .noRegion
  | some g =>
    if g.permits (s.port p).profile k ((s.port p).effective r) then .passed ⟨k, r.addr, w, r.data, r.data2, g.readthru⟩
    else .refused .denied

/-- Steps 1 to 6 of the head check; the first that fixes an outcome ends it (R34..R40). -/
def State.headCheck (s : State) (p : Port) (r : Request) : HeadResult :=
  if (s.port p).state = .fenced then .refused .fenced
  else match Kind.ofCodes r.kind r.op, Width.ofCode r.width with
    | some k, some w => if aligned r.addr w then s.checkRights p r k w else .refused .misaligned
    | none, _ | _, none => .refused .badRequest

end Sys2Proof.Machine
end

