-- ==== Sys2Proof/Machine/Upstream.lean ====
section
/-! DEFINITION. The upstream family: ACCEPTANCE, DELIVERY and DECISION (chapter 1; R34..R45). -/

namespace Sys2Proof.Machine

/-- R1: a request presented while the port presents ready joins the end of the inbound queue, unchecked; while ready is
withheld the part holds nothing of it. -/
def execAcceptance (p : Port) (r : Request) (s : State) : Host.Outcome State Fault Refusal :=
  .next (if (s.port p).ready then s.modPort p (fun x => { x with queue := x.queue ++ [r] }) else s)

/-- R2, R16: the offered response is taken and its entry leaves the response list. -/
def execDelivery (p : Port) (s : State) : Host.Outcome State Fault Refusal :=
  .next (if (s.offered p).isSome then s.modPort p (fun x => { x with resp := x.resp.tail }) else s)

/-- The head leaves the undecided requests, and a serial is taken for its response-list entry (R11, log 9). -/
def State.takeHead (s : State) (p : Port) : State :=
  s.modPort p (fun x => { x with queue := x.queue.tail, nextId := x.nextId + 1 })

/-- An entry freed by the decision itself: that of an UNLOCK (R57). -/
def State.freeUnlocked (s : State) (r : StageResult) : State :=
  match r with
  | .unlock e => s.freeEntry e
  | .refuse _ | .giveUp | .park _ | .waitEntry | .proceed _ => s

/-- A fault outcome is reported; the entry is COMPLETE already (R43). -/
def State.reportResult (s : State) (p : Port) (r : Request) (x : StageResult) : After :=
  match x with
  | .refuse o => s.reportOutcome p r o
  | .giveUp | .unlock _ | .park _ | .waitEntry | .proceed _ => .of s

/-- A refusal of steps 1 to 6 (R43): the request's response-list entry is COMPLETE with the outcome. -/
def State.enterRefused (s : State) (p : Port) (id : Nat) (r : Request) (o : OutcomeCode) : State :=
  s.modPort p (fun x => { x with resp := x.resp ++ [⟨id, r.tag, r.kind, .complete (Answer.plain o)⟩] })

/-- A request handed to the interlock stage: steps 7 and 8 (R41, R42). -/
def State.decideStage (s : State) (p : Port) (id : Nat) (r : Request) (c : Checked) : After :=
  let x := s.stage p c s.entryToTake
  (((⟨p, id, r, c, .decision⟩ : Asking).carryOut x s).freeUnlocked x).reportResult p r x

/-- The head is decided whole (R10, R11, R34). -/
def State.decideHead (s : State) (p : Port) (r : Request) : After :=
  let id := (s.port p).nextId
  match s.headCheck p r with
  | .refused o => ((s.takeHead p).enterRefused p id r o).reportOutcome p r o
  | .passed c  => (s.takeHead p).decideStage p id r c

/-- R10: the port decides its head, where the four conditions hold; a fence it brings follows the decision (R43, R157). -/
def execDecision (p : Port) (s : State) : Host.Outcome State Fault Refusal :=
  .next (match (s.port p).queue with
    | [] => s
    | r :: _ => if s.decides p then (s.decideHead p r).settled else s)

end Sys2Proof.Machine
end

