-- ==== Sys2Proof/Machine/Dispatch.lean ====
section
/-! DEFINITION. The meaning of each command. -/

namespace Sys2Proof.Machine

/-- The effect of a command on everything but the queue. -/
def exec (i : Instr) (s : State) : Host.Outcome State Fault Refusal :=
  match i with
  | .acceptance p r => Sys2Proof.Machine.execAcceptance p r s
  | .delivery p => Sys2Proof.Machine.execDelivery p s
  | .decision p => Sys2Proof.Machine.execDecision p s
  | .grant => Sys2Proof.Machine.execGrant s
  | .transferAcceptance => Sys2Proof.Machine.execTransferAcceptance s
  | .completion status data => Sys2Proof.Machine.execCompletion status data s
  | .holdExpiry e => Sys2Proof.Machine.execHoldExpiry e s
  | .expiryDue e => Sys2Proof.Machine.execExpiryDue e s
  | .responseLimitExpiry => Sys2Proof.Machine.execResponseLimitExpiry s
  | .passageToUp memIdle => Sys2Proof.Machine.execPassageToUp memIdle s
  | .deviceReset defcfg => Sys2Proof.Machine.execDeviceReset defcfg s
  | .prstNAsserted p => Sys2Proof.Machine.execPrstNAsserted p s
  | .prstNDeasserted p => Sys2Proof.Machine.execPrstNDeasserted p s
  | .mcsNFalling => Sys2Proof.Machine.execMcsNFalling s
  | .mcsNRising => Sys2Proof.Machine.execMcsNRising s
  | .badCommand b => Sys2Proof.Machine.execBadCommand b s
  | .readStatus => Sys2Proof.Machine.execReadStatus s
  | .readPort b => Sys2Proof.Machine.execReadPort b s
  | .readRegion b => Sys2Proof.Machine.execReadRegion b s
  | .readLock b => Sys2Proof.Machine.execReadLock b s
  | .readMemoryPort => Sys2Proof.Machine.execReadMemoryPort s
  | .writeProfile b => Sys2Proof.Machine.execWriteProfile b s
  | .pausePort b => Sys2Proof.Machine.execPausePort b s
  | .resumePort b => Sys2Proof.Machine.execResumePort b s
  | .ackFault b => Sys2Proof.Machine.execAckFault b s
  | .writeRegion b => Sys2Proof.Machine.execWriteRegion b s
  | .breakLock b => Sys2Proof.Machine.execBreakLock b s
  | .setResponseLimit b => Sys2Proof.Machine.execSetResponseLimit b s
  | .recoverMemory => Sys2Proof.Machine.execRecoverMemory s
  | .byteReceived b => Sys2Proof.Machine.execByteReceived b s

end Sys2Proof.Machine
end

