-- ==== Sys2Proof/Machine/Idle.lean ====
section
/-! DEFINITION. What the part does by itself, with no command waiting (log 1, 2, 3): an event of its own that is due, and where
none is due, the passing of REFCLK time, with the bits that the BMC clocks in it. -/

namespace Sys2Proof.Machine

/-- GRANT is due: the conditions of R133. -/
def State.grantDue (s : State) : Bool := s.grantOpen && s.choice.isSome

/-- The passage to UP is due: SETTLING with MEM_IDLE asserted (R143). -/
def State.passageDue (s : State) : Bool := s.mem.state == .settling && s.pins.memIdle

/-- The command, where its condition holds. -/
def dueIf (b : Bool) (i : Instr) : List Instr := if b then [i] else []

/-- The events of the part itself that are due: each happens "at the event at which all of the following hold" (R10, R133), or
when its timer stands at zero (R81, R83, R140). -/
def State.due (s : State) : List Instr :=
  allPorts.flatMap (fun p => dueIf (s.decides p) (.decision p)) ++
  dueIf s.grantDue .grant ++ dueIf s.passageDue (.passageToUp true) ++ dueIf s.limitReached .responseLimitExpiry ++
  allEntries.flatMap (fun e => dueIf (s.holdExpires e) (.holdExpiry e) ++ dueIf (s.expiryFallsDue e) (.expiryDue e))

/-- A choice among due events is taken with the free value `Config.eventOrder` (log 1). -/
def State.chosenDue (s : State) (l : List Instr) : Option Instr := l[Config.eventOrder s.choices % l.length]?

/-- No command waits: the due event, the one chosen of several, or one quantum of time. -/
def State.idle (s : State) : Host.Outcome State Fault Refusal :=
  match s.due with
  | [] => .next s.tick
  | [i] => exec i s
  | l =>
    match s.chosenDue l with
    | none => .next s.tick
    | some i => exec i { s with choices := s.choices + 1 }

/-- A command put at the front of the queue. -/
def State.withFront (s : State) (i : Option Instr) : State :=
  match i with
  | none => s
  | some c => { s with pending := c :: s.pending }

end Sys2Proof.Machine
end

