-- ==== Sys2Proof/Safety.lean ====
section
/-! DEFINITION. What counts as a safe run, the laws of the spec that every state of a run keeps, and the words the statements
use for a state after a decision. -/

namespace Sys2Proof.Machine

/-- A step is safe when it answers a next state. -/
def SafeStep (s : State) : Prop := ∃ t, step s = .next t

/-! ### Laws of the spec -/

/-- R47: no two interlock entries that are not FREE name the same line. -/
def State.LinesDistinct (s : State) : Prop :=
  ∀ e f x y, s.entry e = some x → s.entry f = some y → x.line = y.line → e = f

/-- R132: the outstanding list never holds more than four transfers, it is empty whenever the memory port is SETTLING or DOWN,
and only its newest item can be unaccepted. -/
def State.OutstandingBounded (s : State) : Prop :=
  s.mem.outstanding.length ≤ 4 ∧ (s.mem.state ≠ .up → s.mem.outstanding = []) ∧
    ∀ i ∈ s.mem.outstanding.dropLast, i.accepted = true

/-- R8, R13: an inbound queue holds at most 8 requests, the held place counted, and a response list at most 4 entries. -/
def State.QueuesBounded (s : State) : Prop := ∀ p, (s.port p).inbound ≤ 8 ∧ (s.port p).resp.length ≤ 4

/-- R22, R155, R156: a port whose PRST_N is asserted is OFFLINE; a port is FENCED exactly while its record holds two faults; an
OFFLINE port has an empty queue, response list and fault record. -/
def State.PortStatesLegal (s : State) : Prop :=
  ∀ p, (s.prst p = true → (s.port p).state = .offline) ∧
    ((s.port p).state = .fenced ↔ ∃ r k, (s.port p).fault = .two r k) ∧
    ((s.port p).state = .offline →
      (s.port p).held = none ∧ (s.port p).queue = [] ∧ (s.port p).resp = [] ∧ (s.port p).fault = .empty)

/-- R173, R176, R177, R178: the link is IDLE exactly while MCS_N is deasserted, ARGUMENTS waits for at least one more byte, and
REPLY has at least one byte still to send. -/
def State.FrameLegal (s : State) : Prop :=
  (s.link = .idle ↔ s.pins.mcs = false) ∧
    (∀ c got, s.link = .arguments c got → got.length < c.argCount) ∧
    (∀ bytes sent, s.link = .reply bytes sent → sent < bytes.length)

/-- R18, R20, R28, R148: a valid region's base is no greater than its limit, lock limits are 1 or 2, hold limits and the response
limit are not 0. -/
def State.SettingsLegal (s : State) : Prop :=
  (∀ g : RegionIx, s.regions[g].valid = true → s.regions[g].base ≤ s.regions[g].limit) ∧
    (∀ p, ((s.port p).profile.lockLimit = 1 ∨ (s.port p).profile.lockLimit = 2) ∧ (s.port p).profile.holdLimit ≠ 0) ∧
    s.mem.limit ≠ 0

/-- R159, R160, R168: port `p` stands on no waiter list and not on the entry-wait list, and has nothing on the handover list and
no held line. -/
def State.Absent (s : State) (p : Port) : Prop :=
  (∀ e x, s.entry e = some x → p ∉ x.waiters) ∧ p ∉ s.table.entryWait ∧ (∀ i ∈ s.table.handover, i.port ≠ p) ∧
    s.heldLines p = []

/-- R161, R168: an entry that names port `p` as its owner is detached, or FUSING FRESH with the record of `p` that names it. -/
def State.OwnsOnlyWorkInFlight (s : State) (p : Port) : Prop :=
  ∀ e x, s.entry e = some x → x.owner = p →
    x.work.detached = true ∨ x.work = .fusingFresh ∧ ∃ r, s.record p = some r ∧ r.entry = e

/-- R168: a FENCED or OFFLINE port has an empty held-line list, stands on no list of the interlock table, and has nothing on the
handover list. -/
def State.OutOfServiceAbsent (s : State) : Prop :=
  ∀ p, (s.port p).state = .fenced ∨ (s.port p).state = .offline → s.Absent p

/-- R75: while the entry-wait list is not empty no entry stays FREE. -/
def State.NoneFreeWhileWaiting (s : State) : Prop := s.table.entryWait ≠ [] → ∀ e, s.entry e ≠ none

/-! ### The chain of owners -/

/-- R94: the chain of owners from entry `e` comes back to port `p`. The owner of `e` is `p`, or it is PARKED on an entry from which
the chain comes back to `p`, and `e` is neither FUSING FRESH nor detached. -/
inductive State.ComesBackTo (s : State) (p : Port) : EntryIx → Prop where
  | owner {e x} (he : s.entry e = some x) (hp : x.owner = p) : ComesBackTo s p e
  | parked {e x e'} (he : s.entry e = some x) (hw : x.work ≠ .fusingFresh) (hd : x.work.detached = false)
      (hq : s.parked x.owner = true) (ho : s.waitingOn x.owner = some e') (hc : ComesBackTo s p e') : ComesBackTo s p e

/-! ### Words for the statements -/

/-- R11: a port whose head `r` has left its queue for a new entry of the response list in state `st`, `rest` standing behind. `nextId`
is the entry's serial (log 9). -/
def PortIf.answered (x : PortIf) (r : Request) (rest : List Request) (st : RespState) : PortIf :=
  { x with queue := rest, resp := x.resp ++ [⟨x.nextId, r.tag, r.kind, st⟩], nextId := x.nextId + 1 }

/-- R8: the same with the request kept as the held place. -/
def PortIf.waiting (x : PortIf) (r : Request) (rest : List Request) (c : Checked) (st : RespState) : PortIf :=
  { x.answered r rest st with held := some ⟨r, x.nextId, c⟩ }

/-- R43, R156: the head answered with outcome `o`, a fault of kind `k` that fills the empty record. The privilege reported is the
one after the port's cap (R38). -/
def PortIf.faulted (x : PortIf) (r : Request) (rest : List Request) (o : OutcomeCode) (k : FaultKind) : PortIf :=
  { x.answered r rest (.complete ⟨o, 0, Flags.zero⟩) with
    fault := .first ⟨k, r.addr, some ⟨r.tag, r.kind, if x.profile.capUser then .user else r.priv⟩⟩ }

/-- An ACTIVE port that decides its head `r` (R10), with `rest` behind it. -/
def State.Decides (s : State) (p : Port) (r : Request) (rest : List Request) : Prop :=
  s.decides p = true ∧ (s.port p).state = .active ∧ (s.port p).queue = r :: rest

/-- The head passes steps 1 to 6, and is handed to the interlock stage as `c` (R40). -/
def State.Passes (s : State) (p : Port) (r : Request) (rest : List Request) (c : Checked) : Prop :=
  s.Decides p r rest ∧ s.headCheck p r = .passed c

/-- `e` is the lowest-numbered FREE entry, and no port waits for an entry (R47, R54, R58). -/
def State.Lowest (s : State) (e : EntryIx) : Prop :=
  s.table.entryWait = [] ∧ s.entry e = none ∧ ∀ f < e, s.entry f ≠ none

/-- The request needs a lock or an operation on a line that another holds, and would park on its entry (R52, R53, R54, R58). -/
def State.WouldPark (s : State) (p : Port) (c : Checked) : Prop :=
  (c.kind = .read ∧ c.readthru = false) ∨ c.kind = .write ∨
    (c.kind = .lockRead ∧ (s.heldLines p).length < (s.port p).profile.lockLimit.toNat) ∨ ∃ op, c.kind = .fused op

/-- The list's front, if any, has not yet reached the response limit (R139). -/
def State.FrontInTime (s : State) (l : List OutItem) : Prop :=
  ∀ i, l.head? = some i → s.clock.now - i.issueTime < s.limitTime

/-- The memory port is UP with accepted transfer `i` at the front of its outstanding list, and the transfers behind it in time
(R131, R139). -/
def State.Front (s : State) (i : OutItem) (rest : List OutItem) : Prop :=
  s.mem.state = .up ∧ s.mem.outstanding = i :: rest ∧ i.accepted = true ∧ s.FrontInTime rest

/-- The state whose front transfer has left the outstanding list (R131). -/
def State.popFront (s : State) (rest : List OutItem) : State := s.setMem { s.mem with outstanding := rest }

/-- The expiry of entry `e`, which held `x` (R83, R84): the line BROKEN, the entry freed with handover, and the report over the
owner's fault record `f`; over a first fault it fences the owner, whose teardown follows (R156, R157). -/
def State.expired (s : State) (e : EntryIx) (x : Entry) (f : FaultRecord) : State :=
  let t := (s.changeHeld x.owner x.line (.broken .timeout)).freeEntry e
  match f with
  | .empty => t.modPort x.owner (fun y => { y with fault := .first ⟨.holdExpired, x.line ++ (0 : BitVec 4), none⟩ })
  | .first r => (t.modPort x.owner (fun y => { y with fault := .two r .holdExpired, state := .fenced })).teardown x.owner
  | .two _ _ => t

/-- What it is for transfer `i`, failed, to reach its origin (R138, R140, R145): `a` is the state it leaves, with the port that a
deferred expiry fences (R81), whose teardown follows the whole event. -/
def State.TakesFailure (s : State) (i : OutItem) (a : After) : Prop :=
  let failed : RespState := .complete ⟨.memError, 0, Flags.zero⟩
  let finished := fun (p : Port) (r : OpRecord) => (s.setRecord p none).modPort p (fun y => y.setResp r.respId failed)
  match i.origin with
  | .request p id .plain => a = .of (s.modPort p (fun y => y.setResp id failed))
  | .request p id (.acquire e) => ∀ x, s.entry e = some x →
    (x.work.detached = false → a = .of (((s.leaveHeld p x.line).modPort p (fun y => y.setResp id failed)).freeEntry e)) ∧
    (x.work.detached = true →
      a = .of ((s.modPort p (fun y => y.setResp id (.complete ⟨.fenced, 0, Flags.zero⟩))).freeEntry e))
  | .request p id (.release e) => ∀ x, s.entry e = some x →
    (x.work.detached = false → a = .of (((s.leaveHeld p x.line).modPort p (fun y => y.setResp id failed)).freeEntry e)) ∧
    (x.work.detached = true → a = .of ((s.modPort p (fun y => y.setResp id failed)).freeEntry e))
  | .operationRead p | .writeBack p => ∀ r x, s.record p = some r → s.entry r.entry = some x →
    (x.work = .fusingFresh ∨ x.work = .fusingDetached → a = .of ((finished p r).freeEntry r.entry)) ∧
    (∀ n, x.work = .fusingUnderLock n false → a = .of ((finished p r).setEntry r.entry (some { x with work := .held n }))) ∧
    (∀ n, x.work = .fusingUnderLock n true → (s.port x.owner).state = .active ∨ (s.port x.owner).state = .paused →
      let back := (finished p r).setEntry r.entry (some { x with work := .held n })
      let freed := (back.changeHeld x.owner x.line (.broken .timeout)).freeEntry r.entry
      a = match (s.port x.owner).fault with
        | .empty => .of (freed.modPort x.owner
            (fun y => { y with fault := .first ⟨.holdExpired, x.line ++ (0 : BitVec 4), none⟩ }))
        | .first f => ⟨freed.modPort x.owner (fun y => { y with fault := .two f .holdExpired, state := .fenced }), [x.owner]⟩
        | .two _ _ => .of freed)

/-- The link replies with these bytes, the first position just begun, and nothing else changes. -/
def State.replied (s : State) (bytes : List Byte) : State := s.setLink (.reply bytes 0)

end Sys2Proof.Machine
end

