-- ==== Sys2Proof/Certificates/Slice0/Obligations.lean ====
section
/-! DEFINITION. The statements about the Regjet 740, family by family. A statement about a command writes out the whole next state,
so that it says what the command changes and what it leaves alone. -/

open Sys2Proof Sys2Proof.Machine

/-! ### Steps -/

/-- One step takes the command at the front of the queue and runs it on the state with the queue's rest (log 3). -/
def Obligations.StepRunsTheFrontCommand : Prop :=
  ∀ (s : State) (c : Instr) (rest : List Instr), s.pending = c :: rest → step s = exec c { s with pending := rest }

/-- The model's choice for a part left to itself (logs 1, 2, 3): one of its own due events, whichever of several, and where none is
due, one quantum of time. Due are the decisions and the grant whose conditions hold (R10, R133), the passage to UP (R143), the expiry of
the response limit (R140), and HOLD-EXPIRY and EXPIRY-DUE of a timer at zero whose owner is not PAUSED (R81, R83; log 18). The quantum
moves the clock by one, which the response limit is measured by (R139), and is counted off the timer of a HELD or UNDER-LOCK entry
unless its owner is PAUSED (R80); every other entry keeps its work, and nothing else of the part changes but what the maintenance link
clocks in it (log 8). -/
def Obligations.StepOnAnEmptyQueueTakesADueEventOrTime : Prop :=
  ∀ s : State, s.pending = [] →
    (s.due = [] → step s = .next s.tick) ∧
    (∀ i, s.due = [i] → step s = exec i s) ∧
    (2 ≤ s.due.length → ∃ i ∈ s.due, step s = exec i { s with choices := s.choices + 1 }) ∧
    (∀ i, i ∈ s.due ↔ (∃ p, i = .decision p ∧ s.decides p = true) ∨ (i = .grant ∧ s.grantDue = true) ∨
      (i = .passageToUp true ∧ s.mem.state = .settling ∧ s.pins.memIdle = true) ∨
      (i = .responseLimitExpiry ∧ s.mem.state = .up ∧ ∃ x rest, s.mem.outstanding = x :: rest ∧
        s.mem.limit.toNat * s.perMicrosecond ≤ s.clock.now - x.issueTime) ∨
      ∃ e x, s.entry e = some x ∧ (s.port x.owner).state ≠ .paused ∧
        (i = .holdExpiry e ∧ x.work = .held 0 ∨ i = .expiryDue e ∧ x.work = .fusingUnderLock 0 false)) ∧
    s.tick.clock = ⟨s.clock.now + 1, s.clock.finer⟩ ∧
    (s.tick.ports = s.ports ∧ s.tick.regions = s.regions ∧ s.tick.table.heldLines = s.table.heldLines ∧
      s.tick.table.handover = s.table.handover ∧ s.tick.table.entryWait = s.table.entryWait ∧ s.tick.ops = s.ops ∧
      s.tick.mem = s.mem ∧ s.tick.link = s.link ∧ s.tick.pins = s.pins ∧ s.tick.choices = s.choices) ∧
    (s.tick.wire = s.wire.tail ∧ ((∀ bit later, s.wire ≠ some bit :: later) →
      s.tick.shift = s.shift ∧ s.tick.pending = s.pending)) ∧
    (∀ e, s.entry e = none → s.tick.entry e = none) ∧
    ∀ e x, s.entry e = some x → s.tick.entry e = some { x with work :=
      match x.work with
      | .held n => if (s.port x.owner).state = .paused then .held n else .held (n - 1)
      | .fusingUnderLock n d => if (s.port x.owner).state = .paused then .fusingUnderLock n d else .fusingUnderLock (n - 1) d
      | .acquiring d => .acquiring d
      | .releasing d => .releasing d
      | .fusingFresh => .fusingFresh
      | .fusingDetached => .fusingDetached }

/-- No command stops the part, and none reaches the waiting commands or the model's clock. -/
def Obligations.EveryCommandGoesOn : Prop :=
  ∀ (c : Instr) (s : State),
    ∃ t, exec c s = .next t ∧ t.pending = s.pending ∧ t.clock = s.clock ∧ t.choices = s.choices

/-! ### Upstream ports -/

/-- R1, R9: a request joins the end of the inbound queue unchecked while the port is not OFFLINE and holds fewer than 8; otherwise
nothing is held of it (log 4). -/
def Obligations.AcceptanceJoinsTheQueue : Prop :=
  ∀ (s : State) (p : Port) (r : Request),
    ((s.port p).state ≠ .offline → (s.port p).inbound < 8 →
      exec (.acceptance p r) s = .next (s.modPort p (fun x => { x with queue := x.queue ++ [r] }))) ∧
    ((s.port p).state = .offline ∨ 8 ≤ (s.port p).inbound → exec (.acceptance p r) s = .next s)

/-- R2, R16: the front entry is delivered while it is COMPLETE, with its tag and answer; a front that is not COMPLETE offers
nothing, and a delivery then changes nothing (log 4). -/
def Obligations.DeliveryTakesTheCompleteFront : Prop :=
  ∀ (s : State) (p : Port) (r : RespEntry) (rest : List RespEntry), (s.port p).state ≠ .offline → (s.port p).resp = r :: rest →
    (∀ a, r.state = .complete a → s.offered p = some (r.tag, a) ∧
      exec (.delivery p) s = .next (s.modPort p (fun x => { x with resp := rest }))) ∧
    ((∀ a, r.state ≠ .complete a) → s.offered p = none ∧ exec (.delivery p) s = .next s)

/-- R10, R12: a port decides exactly where its four conditions hold. Where they do not all hold it decides nothing, and a decision then
changes nothing (log 4). -/
def Obligations.NothingIsDecidedOutsideItsConditions : Prop :=
  ∀ (s : State) (p : Port),
    (s.decides p = true ↔ ((s.port p).state = .active ∨ (s.port p).state = .fenced) ∧ (s.port p).queue ≠ [] ∧
      (s.port p).resp.length < 4 ∧ s.record p = none ∧
      ∀ r ∈ (s.port p).resp, r.state ≠ .parked ∧ r.state ≠ .entryWait ∧ r.state ≠ .handedOver) ∧
    ((s.port p).state = .paused ∨ (s.port p).state = .offline ∨ (s.port p).queue = [] ∨ 4 ≤ (s.port p).resp.length ∨
      (s.record p).isSome = true ∨
      (∃ r ∈ (s.port p).resp, r.state = .parked ∨ r.state = .entryWait ∨ r.state = .handedOver) →
    exec (.decision p) s = .next s)

/-! ### The head check -/

/-- R35: a FENCED port answers each head FENCED, whatever its fields hold, and its fault record is left as it is. -/
def Obligations.FencedHeadIsAnsweredFenced : Prop :=
  ∀ (s : State) (p : Port) (r : Request) (rest : List Request),
    s.decides p = true → (s.port p).state = .fenced → (s.port p).queue = r :: rest →
    exec (.decision p) s =
      .next (s.modPort p (fun x => x.answered r rest (.complete ⟨.fenced, 0, Flags.zero⟩)))

/-- R36, R37: an undefined KIND or WIDTH, or an undefined OP of a FUSED, is BAD-REQUEST, reported with KIND as received, and OP of
another kind is not tested; with defined codes an ADDR that is no multiple of the width is MISALIGNED, for every kind. -/
def Obligations.CodesAndAlignmentAreTested : Prop :=
  ∀ (s : State) (p : Port) (r : Request) (rest : List Request), s.Decides p r rest →
    let undefinedCode := 6 ≤ r.kind.toNat ∨ r.width.toNat = 3 ∨ r.kind.toNat = 5 ∧ r.op.toNat = 7
    let unaligned := r.width.toNat = 1 ∧ r.addr.toNat % 2 ≠ 0 ∨ r.width.toNat = 2 ∧ r.addr.toNat % 4 ≠ 0
    (undefinedCode → s.headCheck p r = .refused .badRequest ∧ ((s.port p).fault = .empty →
      exec (.decision p) s = .next (s.modPort p (fun x => x.faulted r rest .badRequest .badRequest)))) ∧
    (¬ undefinedCode → s.headCheck p r ≠ .refused .badRequest) ∧
    (¬ undefinedCode → unaligned → s.headCheck p r = .refused .misaligned ∧ ((s.port p).fault = .empty →
      exec (.decision p) s = .next (s.modPort p (fun x => x.faulted r rest .misaligned .misaligned)))) ∧
    (¬ undefinedCode → ¬ unaligned → s.headCheck p r ≠ .refused .misaligned)

/-- R29: the matching region is the lowest-numbered valid entry that contains the block and includes the port, and all addresses of
a line match the same one. -/
def Obligations.MatchingRegionIsTheLowestNumbered : Prop :=
  ∀ (s : State) (p : Port),
    (∀ b, (∃ g : RegionIx, s.matchRegion p b = some s.regions[g] ∧
        (s.regions[g].valid = true ∧ s.regions[g].base ≤ b ∧ b ≤ s.regions[g].limit ∧ s.regions[g].mask.getLsbD p = true) ∧
        ∀ h < g, ¬ (s.regions[h].valid = true ∧ s.regions[h].base ≤ b ∧ b ≤ s.regions[h].limit ∧
          s.regions[h].mask.getLsbD p = true)) ∨
      (s.matchRegion p b = none ∧
        ∀ h : RegionIx, ¬ (s.regions[h].valid = true ∧ s.regions[h].base ≤ b ∧ b ≤ s.regions[h].limit ∧
          s.regions[h].mask.getLsbD p = true))) ∧
    ∀ a a' : Word, lineOf a = lineOf a' → s.matchRegion p (blockOf a) = s.matchRegion p (blockOf a')

/-- R30, R39, R40: a head with defined codes and an aligned ADDR is NO-REGION where no region matches, DENIED where the matched one or
the profile lacks a right its kind needs for its effective privilege, and otherwise handed to the interlock stage with its
region's READTHRU. -/
def Obligations.RegionAndRightsAreChecked : Prop :=
  ∀ (s : State) (p : Port) (r : Request) (rest : List Request) (k : Kind) (w : Width), s.Decides p r rest →
    Kind.ofCodes r.kind r.op = some k → Width.ofCode r.width = some w → r.addr.toNat % w.bytes = 0 →
    (s.matchRegion p (blockOf r.addr) = none → s.headCheck p r = .refused .noRegion ∧ ((s.port p).fault = .empty →
      exec (.decision p) s = .next (s.modPort p (fun x => x.faulted r rest .noRegion .noRegion)))) ∧
    ∀ g, s.matchRegion p (blockOf r.addr) = some g →
      let user := (s.port p).profile.capUser = true ∨ r.priv = .user
      let read := if user then g.ur = true else g.sr = true
      let write := if user then g.uw = true else g.sw = true
      let permitted := match k with
        | .read => read
        | .write | .releaseWrite => write
        | .lockRead => read ∧ write ∧ g.lock = true
        | .unlock => True
        | .fused _ => read ∧ write ∧ g.lock = true ∧ (s.port p).profile.fusedAllowed = true
      (¬ permitted → s.headCheck p r = .refused .denied ∧ ((s.port p).fault = .empty →
        exec (.decision p) s = .next (s.modPort p (fun x => x.faulted r rest .denied .denied)))) ∧
      (permitted → s.headCheck p r = .passed ⟨k, r.addr, w, r.data, r.data2, g.readthru⟩)

/-- R43, R154, R156, R157, R159, R168: a fault outcome over a record that holds one keeps the first report, stores the second kind and
fences the port: its own entry is COMPLETE with the fault, and then the port is torn down, so that it stands on no list of the
interlock table, and an entry that still names it is detached or FUSING FRESH with its record. No other port's state, profile,
undecided requests or fault record changes. -/
def Obligations.SecondFaultFencesThePort : Prop :=
  ∀ (s : State) (p : Port) (r : Request) (rest : List Request) (o : OutcomeCode) (k : FaultKind) (first : Report),
    s.Decides p r rest → (s.port p).fault = .first first → o.fault = some k →
    (s.headCheck p r = .refused o ∨ ∃ c, s.headCheck p r = .passed c ∧ s.stage p c s.entryToTake = .refuse o) →
    ∃ t, exec (.decision p) s = .next t ∧
      t = (s.modPort p (fun x => { x.answered r rest (.complete ⟨o, 0, Flags.zero⟩) with
        state := .fenced, fault := .two first k })).teardown p ∧
      t.OwnsOnlyWorkInFlight p ∧ (t.port p).state = .fenced ∧ (t.port p).fault = .two first k ∧
      (t.port p).queue = rest ∧ (t.port p).profile = (s.port p).profile ∧
      (t.port p).resp.getLast? = some ⟨(s.port p).nextId, r.tag, r.kind, .complete ⟨o, 0, Flags.zero⟩⟩ ∧
      t.Absent p ∧ t.mem = s.mem ∧ t.regions = s.regions ∧
      ∀ q, q ≠ p → (t.port q).state = (s.port q).state ∧ (t.port q).profile = (s.port q).profile ∧
        (t.port q).queue = (s.port q).queue ∧ (t.port q).fault = (s.port q).fault

/-! ### The interlock stage -/

/-- R42, R52, R53: a plain READ or WRITE of a free line, or of one the port itself holds, waits for grant with its transfer as
given, as does a READ past a line held by another where READTHRU is 1; while the memory port is DOWN it is answered MEM-DOWN. -/
def Obligations.PlainRequestProceedsToMemory : Prop :=
  ∀ (s : State) (p : Port) (r : Request) (rest : List Request) (c : Checked), s.Passes p r rest c →
    ((s.own p c.line = none ∨ c.kind = .read) ∧ s.lineEntry c.line = none ∨ s.own p c.line = some .held ∨
      s.own p c.line = some .acquiring ∨ s.own p c.line = some .releasing ∨ c.kind = .read ∧ c.readthru = true) →
    ∀ t : Transfer, (c.kind = .read ∧ t = ⟨.read, c.addr, c.width, 0⟩ ∨
        c.kind = .write ∧ t = ⟨.write, c.addr, c.width, c.width.low c.data⟩) →
      (s.memDown = false →
        exec (.decision p) s = .next (s.modPort p (fun x => x.answered r rest (.awaitingGrant .plain t)))) ∧
      (s.memDown = true →
        exec (.decision p) s = .next (s.modPort p (fun x => x.answered r rest (.complete ⟨.memDown, 0, Flags.zero⟩))))

/-- R47, R54, R55: a LOCK-READ of a free line, with room below the lock limit, takes the lowest-numbered FREE entry in ACQUIRING,
the line joins the end of the held-line list, and the acquire read waits for grant; DOWN, nothing is taken. -/
def Obligations.LockReadTakesTheLowestFreeEntry : Prop :=
  ∀ (s : State) (p : Port) (r : Request) (rest : List Request) (c : Checked) (e : EntryIx), s.Passes p r rest c →
    c.kind = .lockRead → s.own p c.line = none → (s.heldLines p).length < (s.port p).profile.lockLimit.toNat →
    s.lineEntry c.line = none → s.Lowest e →
    (s.memDown = false → exec (.decision p) s =
      .next (((s.setEntry e (some ⟨c.line, p, .acquiring false, []⟩)).setHeldLines p
        (s.heldLines p ++ [⟨c.line, .acquiring⟩])).modPort p
          (fun x => x.answered r rest (.awaitingGrant (.acquire e) ⟨.read, c.addr, c.width, 0⟩)))) ∧
    (s.memDown = true →
      exec (.decision p) s = .next (s.modPort p (fun x => x.answered r rest (.complete ⟨.memDown, 0, Flags.zero⟩))))

/-- R54, R56, R57, R58: a LOCK-READ of a line in the port's list is LOCK-HELD, and one at the lock limit is LIMIT before the line is
looked at; a RELEASE-WRITE or UNLOCK of a line not in the list, and either or a FUSED of one in ACQUIRING or RELEASING, is
NOT-HELD. Each is a fault, and the table is unchanged. -/
def Obligations.MisuseOfLocksIsAFault : Prop :=
  ∀ (s : State) (p : Port) (r : Request) (rest : List Request) (c : Checked), s.Passes p r rest c → (s.port p).fault = .empty →
    (c.kind = .lockRead → s.own p c.line ≠ none →
      exec (.decision p) s = .next (s.modPort p (fun x => x.faulted r rest .lockHeld .lockHeld))) ∧
    (c.kind = .lockRead → s.own p c.line = none → (s.port p).profile.lockLimit.toNat ≤ (s.heldLines p).length →
      exec (.decision p) s = .next (s.modPort p (fun x => x.faulted r rest .limit .limit))) ∧
    ((c.kind = .releaseWrite ∨ c.kind = .unlock) ∧ s.own p c.line = none ∨
      (c.kind = .releaseWrite ∨ c.kind = .unlock ∨ ∃ op, c.kind = .fused op) ∧
        (s.own p c.line = some .acquiring ∨ s.own p c.line = some .releasing) →
      exec (.decision p) s = .next (s.modPort p (fun x => x.faulted r rest .notHeld .notHeld)))

/-- R54, R58, R75: a LOCK-READ or FUSED of a free line joins the end of the entry-wait list where no entry is FREE, or where the list
already holds a port, and stays as the held place. -/
def Obligations.LockerWithoutAnEntryWaits : Prop :=
  ∀ (s : State) (p : Port) (r : Request) (rest : List Request) (c : Checked), s.Passes p r rest c →
    (c.kind = .lockRead ∧ (s.heldLines p).length < (s.port p).profile.lockLimit.toNat ∨ ∃ op, c.kind = .fused op) →
    s.own p c.line = none → s.lineEntry c.line = none → ((∀ e, s.entry e ≠ none) ∨ s.table.entryWait ≠ []) →
    exec (.decision p) s = .next ((s.setEntryWait (s.table.entryWait ++ [p])).modPort p (fun x => x.waiting r rest c .entryWait))

/-- R52, R53, R54, R58, R61: a request that needs a line held by another parks at the end of the waiter list of the line's entry and
stays as the held place, unless the chain of owners comes back to its port: then it is answered DEADLOCK, no fault, and nothing
is parked (R94, R97). -/
def Obligations.HeldLineParksOrRefusesTheCycle : Prop :=
  ∀ (s : State) (p : Port) (r : Request) (rest : List Request) (c : Checked) (e : EntryIx) (x : Entry), s.Passes p r rest c →
    s.WouldPark p c → (s.own p c.line = none ∨ c.kind = .read ∧ ∃ cause, s.own p c.line = some (.broken cause)) →
    s.lineEntry c.line = some e → s.entry e = some x →
    (¬ s.ComesBackTo p e → exec (.decision p) s =
      .next ((s.setEntry e (some { x with waiters := x.waiters ++ [p] })).modPort p (fun y => y.waiting r rest c .parked))) ∧
    (s.ComesBackTo p e →
      exec (.decision p) s = .next (s.modPort p (fun y => y.answered r rest (.complete ⟨.deadlock, 0, Flags.zero⟩))))

/-- R42, R56, R57: a RELEASE-WRITE of a HELD line turns its entry, whose timer stops, and its list entry to RELEASING, and its write
waits for grant; while the memory port is DOWN it is answered MEM-DOWN and the line stays held. An UNLOCK is DONE without memory:
the line leaves the list and its entry is freed with handover. -/
def Obligations.HeldLineIsReleasedOrUnlocked : Prop :=
  ∀ (s : State) (p : Port) (r : Request) (rest : List Request) (c : Checked) (e : EntryIx) (x : Entry), s.Passes p r rest c →
    s.own p c.line = some .held → s.heldEntry p c.line = some e → s.entry e = some x →
    (c.kind = .releaseWrite → s.memDown = false → exec (.decision p) s =
      .next (((s.setEntry e (some { x with work := .releasing false })).changeHeld p c.line .releasing).modPort p
        (fun y => y.answered r rest (.awaitingGrant (.release e) ⟨.write, c.addr, c.width, c.width.low c.data⟩)))) ∧
    (c.kind = .releaseWrite → s.memDown = true →
      exec (.decision p) s = .next (s.modPort p (fun y => y.answered r rest (.complete ⟨.memDown, 0, Flags.zero⟩)))) ∧
    (c.kind = .unlock → exec (.decision p) s =
      .next (((s.modPort p (fun y => y.answered r rest (.complete ⟨.done, 0, Flags.zero⟩))).leaveHeld p c.line).freeEntry e))

/-- R86: on a broken line of the port's list, WRITE and FUSED are answered BROKEN and the entry stays, and RELEASE-WRITE and UNLOCK
are answered BROKEN and the entry leaves. -/
def Obligations.BrokenLineAnswersBroken : Prop :=
  ∀ (s : State) (p : Port) (r : Request) (rest : List Request) (c : Checked) (cause : BreakCause), s.Passes p r rest c →
    s.own p c.line = some (.broken cause) →
    (c.kind = .write ∨ (∃ op, c.kind = .fused op) →
      exec (.decision p) s = .next (s.modPort p (fun x => x.answered r rest (.complete ⟨.broken, 0, Flags.zero⟩)))) ∧
    (c.kind = .releaseWrite ∨ c.kind = .unlock → exec (.decision p) s =
      .next ((s.setHeldLines p ((s.heldLines p).filter (fun h => h.line != c.line))).modPort p
        (fun x => x.answered r rest (.complete ⟨.broken, 0, Flags.zero⟩))))

/-- R59, R113, R114: a FUSED of a free line takes the lowest-numbered FREE entry in FUSING FRESH, and one of the port's HELD line
turns that entry UNDER-LOCK with its time kept; the record is created with its read waiting as the port's candidate. While the
memory port is DOWN the FUSED is answered MEM-DOWN and nothing is taken (R42). -/
def Obligations.FusedStartsAnOperation : Prop :=
  ∀ (s : State) (p : Port) (r : Request) (rest : List Request) (c : Checked) (op : FusedOp) (e : EntryIx),
    s.Passes p r rest c → c.kind = .fused op →
    (s.memDown = true → s.own p c.line = none ∧ s.lineEntry c.line = none ∧ s.Lowest e ∨
        s.own p c.line = some .held ∧ s.heldEntry p c.line = some e →
      exec (.decision p) s = .next (s.modPort p (fun x => x.answered r rest (.complete ⟨.memDown, 0, Flags.zero⟩)))) ∧
    (s.memDown = false → s.own p c.line = none → s.lineEntry c.line = none → s.Lowest e → exec (.decision p) s =
      .next (((s.setEntry e (some ⟨c.line, p, .fusingFresh, []⟩)).setRecord p
        (some ⟨op, c.width, c.addr, c.width.low c.data, c.width.low c.data2, .reading .candidate, .fresh, e, false,
          (s.port p).nextId⟩)).modPort p (fun x => x.answered r rest .inOperation))) ∧
    (∀ x n, s.memDown = false → s.own p c.line = some .held → s.heldEntry p c.line = some e → s.entry e = some x →
      x.work = .held n → exec (.decision p) s =
      .next (((s.setEntry e (some { x with work := .fusingUnderLock n false })).setRecord p
        (some ⟨op, c.width, c.addr, c.width.low c.data, c.width.low c.data2, .reading .candidate, .underLock, e, false,
          (s.port p).nextId⟩)).modPort p (fun x => x.answered r rest .inOperation)))

/-! ### Freeing and handover -/

/-- R69, R70, R71, R72: a freed entry with no waiter becomes FREE; a locking waiter at the front takes it with the waiters behind
kept, its read at the end of the handover list; a plain waiter is released to that list and the walk goes on; and while the memory
port is DOWN the waiter is answered MEM-DOWN and the walk goes on. The walk goes on as if the entry were freed again with the waiters
that are left. A READ may wait for a line that its port has lost, BROKEN in its list (R52). -/
def Obligations.FreedEntryIsHandedOver : Prop :=
  ∀ (s : State) (e : EntryIx) (x : Entry), s.entry e = some x → s.LinesDistinct →
    (x.waiters = [] → s.table.entryWait = [] → s.freeEntry e = s.setEntry e none) ∧
    ∀ q rest (h : HeldPlace), x.waiters = q :: rest → (s.port q).held = some h → h.checked.line = x.line →
      s.own q x.line = none ∨ h.checked.kind = .read →
      (∀ t : State, t.entry e = none → ∀ l p w,
        handoverWalk e rest t = (t.setEntry e (some ⟨l, p, w, rest⟩)).freeEntry e) ∧
      (h.checked.kind = .lockRead → (s.heldLines q).length < (s.port q).profile.lockLimit.toNat → s.memDown = false →
        s.freeEntry e = (((s.setEntry e (some ⟨x.line, q, .acquiring false, rest⟩)).setHeldLines q
          (s.heldLines q ++ [⟨x.line, .acquiring⟩])).setHandover
            (s.table.handover ++ [⟨q, .request h.id (.acquire e), h.checked.transfer⟩])).modPort q
              (fun y => { y with held := none }.setResp h.id .handedOver)) ∧
      (∀ op, h.checked.kind = .fused op → s.memDown = false →
        s.freeEntry e = (((s.setEntry e (some ⟨x.line, q, .fusingFresh, rest⟩)).setRecord q
          (some ⟨op, h.checked.width, h.checked.addr, h.checked.width.low h.checked.data, h.checked.width.low h.checked.data2,
            .reading .handover, .fresh, e, false, h.id⟩)).setHandover
              (s.table.handover ++ [⟨q, .operationRead, h.checked.transfer⟩])).modPort q
                (fun y => { y with held := none }.setResp h.id .inOperation)) ∧
      (h.checked.kind = .read ∨ h.checked.kind = .write → s.memDown = false →
        s.freeEntry e = handoverWalk e rest (((s.setEntry e none).setHandover
          (s.table.handover ++ [⟨q, .request h.id .plain, h.checked.transfer⟩])).modPort q
            (fun y => { y with held := none }.setResp h.id .handedOver))) ∧
      (h.checked.kind = .read ∨ h.checked.kind = .write ∨ (∃ op, h.checked.kind = .fused op) ∨
          (h.checked.kind = .lockRead ∧ (s.heldLines q).length < (s.port q).profile.lockLimit.toNat) → s.memDown = true →
        s.freeEntry e = handoverWalk e rest ((s.setEntry e none).modPort q
          (fun y => { y with held := none }.setResp h.id (.complete ⟨.memDown, 0, Flags.zero⟩))))

/-- R72, R76: an entry freed with no waiter is given to the first port of the entry-wait list. Where its line is still free, a LOCK-READ
takes the entry in ACQUIRING with its read as the port's candidate, a FUSED in FUSING FRESH, and while the memory port is DOWN the
request is answered MEM-DOWN. Where its line is held by another it parks on that line's entry, or is answered DEADLOCK. Where the port
takes nothing the entry goes on to the next port, as if freed again with the list's rest, and on an empty list it stays FREE. -/
def Obligations.FreedEntryGoesToTheEntryWaitList : Prop :=
  ∀ (s : State) (e : EntryIx) (x : Entry) (q : Port) (rest : List Port) (h : HeldPlace), s.entry e = some x → x.waiters = [] →
    s.table.entryWait = q :: rest → (s.port q).held = some h → s.own q h.checked.line = none →
    let on := (s.setEntry e none).setEntryWait rest
    (∀ t : State, t.entry e = none → giveEntry e [] t = t ∧
      ∀ l p w, giveEntry e t.table.entryWait t = (t.setEntry e (some ⟨l, p, w, []⟩)).freeEntry e) ∧
    (∀ f y, s.entry f = some y → f ≠ e → s.LinesDistinct → y.line = h.checked.line →
      h.checked.kind = .lockRead ∧ (s.heldLines q).length < (s.port q).profile.lockLimit.toNat ∨
        (∃ op, h.checked.kind = .fused op) →
      (¬ on.ComesBackTo q f → s.freeEntry e = giveEntry e rest
        ((on.setEntry f (some { y with waiters := y.waiters ++ [q] })).modPort q (fun z => z.setResp h.id .parked))) ∧
      (on.ComesBackTo q f → s.freeEntry e = giveEntry e rest (on.modPort q
        (fun z => { z with held := none }.setResp h.id (.complete ⟨.deadlock, 0, Flags.zero⟩))))) ∧
    ((∀ f y, s.entry f = some y → f ≠ e → y.line ≠ h.checked.line) → s.memDown = true →
      h.checked.kind = .lockRead ∧ (s.heldLines q).length < (s.port q).profile.lockLimit.toNat ∨
        (∃ op, h.checked.kind = .fused op) →
      s.freeEntry e = giveEntry e rest (on.modPort q
        (fun z => { z with held := none }.setResp h.id (.complete ⟨.memDown, 0, Flags.zero⟩)))) ∧
    ((∀ f y, s.entry f = some y → f ≠ e → y.line ≠ h.checked.line) → s.memDown = false →
    (h.checked.kind = .lockRead → (s.heldLines q).length < (s.port q).profile.lockLimit.toNat →
      s.freeEntry e = (((s.setEntry e (some ⟨h.checked.line, q, .acquiring false, []⟩)).setHeldLines q
        (s.heldLines q ++ [⟨h.checked.line, .acquiring⟩])).setEntryWait rest).modPort q
          (fun y => { y with held := none }.setResp h.id (.awaitingGrant (.acquire e) h.checked.transfer))) ∧
    (∀ op, h.checked.kind = .fused op →
      s.freeEntry e = (((s.setEntry e (some ⟨h.checked.line, q, .fusingFresh, []⟩)).setRecord q
        (some ⟨op, h.checked.width, h.checked.addr, h.checked.width.low h.checked.data, h.checked.width.low h.checked.data2,
          .reading .candidate, .fresh, e, false, h.id⟩)).setEntryWait rest).modPort q
            (fun y => { y with held := none }.setResp h.id .inOperation)))

/-- R127, R159, R160, R161, R168: a teardown takes the port off every list, answers its PARKED, ENTRY-WAIT, AWAITING-GRANT and
HANDED-OVER work FENCED, and cancels an operation whose read is not yet granted, answered FENCED too. Then it goes through the entries
that the port owns, E0 first: each is freed with handover, or marked detached where its transfer is outstanding or its UNDER-LOCK
operation goes on, and a FRESH one whose operation goes on stays; last the held-line list is cleared. After it the port stands on no
list and holds no line, and every entry still naming it is detached, or FUSING FRESH with the record that names it. -/
def Obligations.TeardownLeavesOnlyWorkInFlight : Prop :=
  ∀ (s : State) (p : Port),
    let fenced : RespState := .complete ⟨.fenced, 0, Flags.zero⟩
    let left := fun l : List Port => l.filter (fun q => q != p)
    let answered := fun r : RespEntry => match r.state with
      | .parked | .entryWait | .handedOver | .awaitingGrant _ _ => { r with state := fenced }
      | .atMemory | .inOperation | .complete _ => r
    let cancelled := fun r : OpRecord => r.phase = .reading .candidate ∨ r.phase = .reading .handover
    let out : State := { s.modPort p (fun x => { x with held := none, resp := x.resp.map answered }) with table := { s.table with
      entries := s.table.entries.map (Option.map (fun x => { x with waiters := left x.waiters }))
      entryWait := left s.table.entryWait
      handover := s.table.handover.filter (fun i => i.port != p) } }
    let stageTwo := match s.record p with
      | none => out
      | some r => if cancelled r then (out.setRecord p none).modPort p (fun x => x.setResp r.respId fenced) else out
    s.teardown p = (([0, 1, 2, 3, 4, 5, 6, 7] : List EntryIx).foldl (State.teardownEntry p) stageTwo).setHeldLines p [] ∧
    ((s.teardown p).port p = stageTwo.port p) ∧
    (∀ (t : State) e x, t.entry e = some x → x.owner ≠ p → State.teardownEntry p t e = t) ∧
    (∀ (t : State) e x, t.entry e = some x → x.owner = p →
      let outstanding := ∃ i ∈ t.mem.outstanding, ∃ id, i.origin = .request p id (.acquire e) ∨ i.origin = .request p id (.release e)
      let goesOn := ∃ r, t.record p = some r ∧ r.entry = e
      (∀ n, x.work = .held n → State.teardownEntry p t e = t.freeEntry e) ∧
      (x.work = .acquiring false ∨ x.work = .releasing false → ¬ outstanding → State.teardownEntry p t e = t.freeEntry e) ∧
      (x.work = .acquiring false → outstanding →
        State.teardownEntry p t e = t.setEntry e (some { x with work := .acquiring true })) ∧
      (x.work = .releasing false → outstanding →
        State.teardownEntry p t e = t.setEntry e (some { x with work := .releasing true })) ∧
      (x.work = .fusingFresh ∨ (∃ n due, x.work = .fusingUnderLock n due) → ¬ goesOn →
        State.teardownEntry p t e = t.freeEntry e) ∧
      (∀ n due r, x.work = .fusingUnderLock n due → t.record p = some r → r.entry = e → State.teardownEntry p t e =
        (t.setEntry e (some { x with work := .fusingDetached })).setRecord p (some { r with detached := true })) ∧
      (x.work = .fusingFresh → goesOn → State.teardownEntry p t e = t) ∧
      (x.work.detached = true → State.teardownEntry p t e = t)) ∧
    (s.teardown p).Absent p ∧ (s.teardown p).OwnsOnlyWorkInFlight p

/-! ### Hold timers -/

/-- R80, R81, R83, R84: the expiry of a HELD entry makes the owner's line BROKEN, frees the entry with handover and reports
HOLD-EXPIRED with the line address and no tag, kind or privilege; over a first fault it fences the owner afterwards. In FUSING
UNDER-LOCK the lock does not expire: expiry-due is set, and everything else is left as it was. While the owner is PAUSED the timer
stands still, at zero too (log 18), and neither event is taken. An event not taken changes nothing (log 4): that of a timer above zero,
of an entry in another state, or of a FREE one. -/
def Obligations.HoldTimerReachesZero : Prop :=
  ∀ (s : State) (e : EntryIx),
    (s.entry e = none → exec (.holdExpiry e) s = .next s ∧ exec (.expiryDue e) s = .next s) ∧
    ∀ x : Entry, s.entry e = some x →
    (∀ n, x.work = .held (n + 1) ∨ (∃ due, x.work = .fusingUnderLock (n + 1) due) →
      exec (.holdExpiry e) s = .next s ∧ exec (.expiryDue e) s = .next s) ∧
    (x.work ≠ .held 0 → exec (.holdExpiry e) s = .next s) ∧
    (x.work ≠ .fusingUnderLock 0 false → exec (.expiryDue e) s = .next s) ∧
    ((s.port x.owner).state = .active →
      (x.work = .held 0 → (s.port x.owner).fault = .empty → exec (.holdExpiry e) s =
        .next (((s.changeHeld x.owner x.line (.broken .timeout)).freeEntry e).modPort x.owner
          (fun y => { y with fault := .first ⟨.holdExpired, x.line ++ (0 : BitVec 4), none⟩ }))) ∧
      (∀ first, x.work = .held 0 → (s.port x.owner).fault = .first first → exec (.holdExpiry e) s =
        .next ((((s.changeHeld x.owner x.line (.broken .timeout)).freeEntry e).modPort x.owner
          (fun y => { y with fault := .two first .holdExpired, state := .fenced })).teardown x.owner)) ∧
      (x.work = .fusingUnderLock 0 false →
        exec (.expiryDue e) s = .next (s.setEntry e (some { x with work := .fusingUnderLock 0 true })) ∧
        exec (.holdExpiry e) s = .next s)) ∧
    ((s.port x.owner).state = .paused → exec (.holdExpiry e) s = .next s ∧ exec (.expiryDue e) s = .next s)

/-! ### Fused operations -/

/-- R107. -/
def Obligations.AddResultAndFlags : Prop :=
  ∀ (w : Nat) (m s t : BitVec w), 0 < w →
    (FusedOp.add.compute m s t).writes = true ∧
    (FusedOp.add.compute m s t).result.toNat = (m.toNat + s.toNat) % 2 ^ w ∧
    (FusedOp.add.compute m s t).flags.n = (FusedOp.add.compute m s t).result.getLsbD (w - 1) ∧
    ((FusedOp.add.compute m s t).flags.z = true ↔ (FusedOp.add.compute m s t).result = 0) ∧
    ((FusedOp.add.compute m s t).flags.v = true ↔
      m.msb = s.msb ∧ (FusedOp.add.compute m s t).result.msb ≠ m.msb) ∧
    ((FusedOp.add.compute m s t).flags.c = true ↔ 2 ^ w ≤ m.toNat + s.toNat) ∧
    (s = BitVec.allOnes w → (FusedOp.add.compute m s t).result = m - 1 ∧
      ((FusedOp.add.compute m s t).flags.c = true ↔ m ≠ 0))

/-- R108, with what Z, C and N ≠ V tell. -/
def Obligations.SubResultAndFlags : Prop :=
  ∀ (w : Nat) (m s t : BitVec w), 0 < w →
    (FusedOp.sub.compute m s t).writes = true ∧
    ((FusedOp.sub.compute m s t).result.toNat : Int) = ((m.toNat : Int) - s.toNat) % 2 ^ w ∧
    (FusedOp.sub.compute m s t).flags.n = (FusedOp.sub.compute m s t).result.getLsbD (w - 1) ∧
    ((FusedOp.sub.compute m s t).flags.z = true ↔ (FusedOp.sub.compute m s t).result = 0) ∧
    ((FusedOp.sub.compute m s t).flags.v = true ↔
      m.msb ≠ s.msb ∧ (FusedOp.sub.compute m s t).result.msb ≠ m.msb) ∧
    ((FusedOp.sub.compute m s t).flags.c = true ↔ m.toNat < s.toNat) ∧
    ((FusedOp.sub.compute m s t).flags.z = true ↔ m = s) ∧
    ((FusedOp.sub.compute m s t).flags.n ≠ (FusedOp.sub.compute m s t).flags.v ↔ m.toInt < s.toInt)

/-- R109, R110, R111: the three operations on each bit position alone; SWAP writes S and its flags describe M; CSWAP writes T exactly
where M equals S, with the flags of M − S, and finishes at its read where they differ. DATA is the old value M, at a finish at the read
and at one after the write-back. -/
def Obligations.BitAndSwapResultsAndFlags : Prop :=
  ∀ (w : Nat) (m s t : BitVec w), 0 < w →
    (∀ op : FusedOp, op = .setBits ∨ op = .clearBits ∨ op = .flipBits →
      (op.compute m s t).writes = true ∧
      (∀ i < w, (op.compute m s t).result.getLsbD i =
        match op with
        | .setBits => m.getLsbD i || s.getLsbD i
        | .clearBits => m.getLsbD i && !s.getLsbD i
        | _ => m.getLsbD i != s.getLsbD i) ∧
      (op.compute m s t).flags.n = (op.compute m s t).result.getLsbD (w - 1) ∧
      ((op.compute m s t).flags.z = true ↔ (op.compute m s t).result = 0) ∧
      (op.compute m s t).flags.v = false ∧ (op.compute m s t).flags.c = false) ∧
    ((FusedOp.swap.compute m s t).result = s ∧ (FusedOp.swap.compute m s t).writes = true ∧
      (FusedOp.swap.compute m s t).flags.n = m.getLsbD (w - 1) ∧ ((FusedOp.swap.compute m s t).flags.z = true ↔ m = 0) ∧
      (FusedOp.swap.compute m s t).flags.v = false ∧ (FusedOp.swap.compute m s t).flags.c = false) ∧
    (((FusedOp.cswap.compute m s t).writes = true ↔ m = s) ∧ (m = s → (FusedOp.cswap.compute m s t).result = t) ∧
      (FusedOp.cswap.compute m s t).flags = (FusedOp.sub.compute m s t).flags ∧
      ((FusedOp.cswap.compute m s t).flags.z = true ↔ m = s)) ∧
    (∀ (u : State) (p : Port) (r : OpRecord) (data : Word),
      let x := r.op.atWidth r.width data r.operand r.newValue
      x.writes = false → u.operationReadDone p r data = u.finish p r ⟨.done, r.width.low data, x.flags⟩) ∧
    (∀ (r : OpRecord) (old new : Word) (f : Flags), r.phase = .writing old new f → r.doneAnswer = ⟨.done, old, f⟩)

/-! ### The memory port -/

/-- R73, R133, R134, R135, R136: a grant is due exactly where the memory port is UP with fewer than four transfers outstanding, none
offered and waiting for acceptance, and work waits; otherwise it changes nothing (log 4). The front of the write-back list is granted
first, and with that list empty the front of the handover list: it leaves its list, its record or response-list entry passes to its
granted state, and its transfer joins the outstanding list, offered and issued now; the pointer stays. -/
def Obligations.GrantServesTheListsFirst : Prop :=
  ∀ (s : State),
    let workWaits := s.ops.writeBack ≠ [] ∨ s.table.handover ≠ [] ∨ ∃ p,
      (∃ r ∈ (s.port p).resp, ∃ use t, r.state = .awaitingGrant use t) ∨ ∃ r, s.record p = some r ∧ r.phase = .reading .candidate
    (s.grantOpen = true ↔ s.mem.state = .up ∧ s.mem.outstanding.length < 4 ∧ ∀ i ∈ s.mem.outstanding, i.accepted = true) ∧
    (s.grantDue = true ↔ s.grantOpen = true ∧ workWaits) ∧ (s.grantDue = false → exec .grant s = .next s) ∧
    (s.grantOpen = true →
    (∀ i rest r m res f, s.ops.writeBack = i :: rest → s.record i.port = some r → r.phase = .writePending m res f →
      exec .grant s = .next (((s.setWriteBack rest).setRecord i.port (some { r with phase := .writing m res f })).setMem
        { s.mem with outstanding := s.mem.outstanding ++ [⟨i.transfer, s.clock.now, false, .writeBack i.port⟩] })) ∧
    (∀ p id use t rest, s.ops.writeBack = [] → s.table.handover = ⟨p, .request id use, t⟩ :: rest →
      exec .grant s = .next (((s.setHandover rest).modPort p (fun x => x.setResp id .atMemory)).setMem
        { s.mem with outstanding := s.mem.outstanding ++ [⟨t, s.clock.now, false, .request p id use⟩] })) ∧
    (∀ p t rest r, s.ops.writeBack = [] → s.table.handover = ⟨p, .operationRead, t⟩ :: rest → s.record p = some r →
      exec .grant s = .next (((s.setHandover rest).setRecord p (some { r with phase := .reading .outstanding })).setMem
        { s.mem with outstanding := s.mem.outstanding ++ [⟨t, s.clock.now, false, .operationRead p⟩] })))

/-- R134, R135, R136: with both lists empty the candidate of the first port in turn after the pointer is granted, and the pointer
names that port: its oldest AWAITING-GRANT entry, else its operation read that waits. -/
def Obligations.GrantServesThePortsInTurn : Prop :=
  ∀ (s : State) (p : Port) (before after : List Port), s.grantOpen = true → s.ops.writeBack = [] → s.table.handover = [] →
    [s.mem.pointer + 1, s.mem.pointer + 2, s.mem.pointer + 3, s.mem.pointer] = before ++ p :: after →
    (∀ q ∈ before, s.candidate q = none) →
    (∀ older newer id tag kind use t, (s.port p).resp = older ++ ⟨id, tag, kind, .awaitingGrant use t⟩ :: newer →
      (∀ r ∈ older, ∀ u v, r.state ≠ .awaitingGrant u v) →
      exec .grant s = .next ((s.modPort p (fun x => x.setResp id .atMemory)).setMem { s.mem with
        pointer := p
        outstanding := s.mem.outstanding ++ [⟨t, s.clock.now, false, .request p id use⟩] })) ∧
    (∀ r, (∀ x ∈ (s.port p).resp, ∀ u v, x.state ≠ .awaitingGrant u v) → s.record p = some r →
      r.phase = .reading .candidate →
      exec .grant s = .next ((s.setRecord p (some { r with phase := .reading .outstanding })).setMem { s.mem with
        pointer := p
        outstanding := s.mem.outstanding ++ [⟨⟨.read, r.addr, r.width, 0⟩, s.clock.now, false, .operationRead p⟩] }))

/-- R130, R132: the offered transfer, the newest of the list, is accepted; nothing else changes. -/
def Obligations.TransferIsAccepted : Prop :=
  ∀ (s : State) (l : List OutItem) (i : OutItem), s.mem.outstanding = l ++ [i] → (∀ x ∈ l, x.accepted = true) →
    i.accepted = false →
    s.offeredTransfer = some i.transfer ∧
    exec .transferAcceptance s =
      .next (s.setMem { s.mem with outstanding := l ++ [{ i with accepted := true }] })

/-- R131, R137, R138: a plain READ or WRITE at the front completes: DONE, with the low WIDTH bytes of the data for a READ, or MEM-ERROR
with zero data; the item leaves the list and the memory port stays UP. -/
def Obligations.PlainTransferCompletes : Prop :=
  ∀ (s : State) (i : OutItem) (rest : List OutItem) (p : Port) (id : Nat) (data : Word), s.Front i rest →
    i.origin = .request p id .plain →
    exec (.completion .ok data) s = .next ((s.popFront rest).modPort p (fun x => x.setResp id (.complete
      ⟨.done, if i.transfer.dir = .read then i.transfer.width.low data else 0, Flags.zero⟩))) ∧
    exec (.completion .dataError data) s =
      .next ((s.popFront rest).modPort p (fun x => x.setResp id (.complete ⟨.memError, 0, Flags.zero⟩)))

/-- R64, R65, R79, R164: the acquire read of an entry that is not detached makes it HELD with the owner's hold limit, the list entry
HELD and the answer DONE with the value read, the limit counted in quanta (log 2); failed, it frees the entry and the line leaves the
list. That of a detached entry frees it with either status, is answered FENCED, and gives no lock. -/
def Obligations.AcquireReadCompletes : Prop :=
  ∀ (s : State) (i : OutItem) (rest : List OutItem) (p : Port) (id : Nat) (e : EntryIx) (x : Entry) (data : Word),
    s.Front i rest → i.origin = .request p id (.acquire e) → i.transfer.dir = .read → s.entry e = some x → x.owner = p →
    (x.work = .acquiring false →
      (let limit := (s.port p).profile.holdLimit.toNat * s.perMicrosecond
       exec (.completion .ok data) s =
        .next ((((s.popFront rest).setEntry e (some { x with work := .held limit })).changeHeld p x.line .held).modPort p
          (fun y => y.setResp id (.complete ⟨.done, i.transfer.width.low data, Flags.zero⟩)))) ∧
      exec (.completion .dataError data) s =
        .next ((((s.popFront rest).leaveHeld p x.line).modPort p
          (fun y => y.setResp id (.complete ⟨.memError, 0, Flags.zero⟩))).freeEntry e)) ∧
    (x.work = .acquiring true → ∀ status, exec (.completion status data) s =
      .next (((s.popFront rest).modPort p (fun y => y.setResp id (.complete ⟨.fenced, 0, Flags.zero⟩))).freeEntry e))

/-- R66, R165: with either status a release write frees its entry with handover and the line leaves the list, unless the entry is
detached, whose owner's list was cleared already; the answer is DONE or MEM-ERROR. -/
def Obligations.ReleaseWriteCompletes : Prop :=
  ∀ (s : State) (i : OutItem) (rest : List OutItem) (p : Port) (id : Nat) (e : EntryIx) (x : Entry) (data : Word)
    (status : CompletionStatus), s.Front i rest → i.origin = .request p id (.release e) → s.entry e = some x →
    let a : Answer := ⟨match status with | .ok => .done | .dataError => .memError, 0, Flags.zero⟩
    (x.work = .releasing false → exec (.completion status data) s =
      .next ((((s.popFront rest).leaveHeld p x.line).modPort p (fun y => y.setResp id (.complete a))).freeEntry e)) ∧
    (x.work = .releasing true → exec (.completion status data) s =
      .next (((s.popFront rest).modPort p (fun y => y.setResp id (.complete a))).freeEntry e))

/-- R106, R112, R118, R119, R123: the operation read computes M, R and the flags at the record's width. An operation that writes goes
to WRITE-PENDING and its write-back joins the end of the list; a CSWAP whose compare failed finishes, answered DONE with M and the
flags, and a failed read finishes with MEM-ERROR and zero. A FRESH or detached entry is then freed with handover, an UNDER-LOCK one
returns to HELD, and with expiry-due set the expiry is taken at that return (R81). -/
def Obligations.OperationReadCompletes : Prop :=
  ∀ (s : State) (i : OutItem) (rest : List OutItem) (p : Port) (r : OpRecord) (data : Word), s.Front i rest →
    i.origin = .operationRead p → s.record p = some r →
    let u := r.op.atWidth r.width data r.operand r.newValue
    let finished := fun a => ((s.popFront rest).setRecord p none).modPort p (fun y => y.setResp r.respId (.complete a))
    (u.writes = true → exec (.completion .ok data) s =
      .next (((s.popFront rest).setRecord p (some { r with
        phase := .writePending (r.width.low data) (u.result.setWidth 32) u.flags })).setWriteBack
          (s.ops.writeBack ++ [⟨p, ⟨.write, r.addr, r.width, u.result.setWidth 32⟩⟩]))) ∧
    ∀ status a, (status = .ok ∧ u.writes = false ∧ a = ⟨.done, r.width.low data, u.flags⟩ ∨
        status = .dataError ∧ a = ⟨.memError, 0, Flags.zero⟩) →
      ∀ x, s.entry r.entry = some x →
        (x.work = .fusingFresh ∨ x.work = .fusingDetached →
          exec (.completion status data) s = .next ((finished a).freeEntry r.entry)) ∧
        (∀ n, x.work = .fusingUnderLock n false → exec (.completion status data) s =
          .next ((finished a).setEntry r.entry (some { x with work := .held n }))) ∧
        (∀ n, x.work = .fusingUnderLock n true → (s.port x.owner).state = .active ∨ (s.port x.owner).state = .paused →
          exec (.completion status data) s = .next (((finished a).setEntry r.entry (some { x with work := .held n })).expired
            r.entry x (s.port x.owner).fault))

/-- R81, R121, R124: the write-back finishes the record, answered DONE with M and the flags stored at the read, or MEM-ERROR with
neither: a FRESH or detached entry is freed with handover, an UNDER-LOCK one returns to HELD with the time it has left, and with
expiry-due set the expiry is taken at that return. -/
def Obligations.WriteBackCompletes : Prop :=
  ∀ (s : State) (i : OutItem) (rest : List OutItem) (p : Port) (r : OpRecord) (x : Entry) (m res data : Word) (f : Flags)
    (status : CompletionStatus), s.Front i rest → i.origin = .writeBack p → s.record p = some r →
    r.phase = .writing m res f → s.entry r.entry = some x →
    let t := ((s.popFront rest).setRecord p none).modPort p (fun y => y.setResp r.respId (.complete
      (match status with | .ok => ⟨.done, m, f⟩ | .dataError => ⟨.memError, 0, Flags.zero⟩)))
    (x.work = .fusingFresh ∨ x.work = .fusingDetached → exec (.completion status data) s = .next (t.freeEntry r.entry)) ∧
    (∀ n, x.work = .fusingUnderLock n false →
      exec (.completion status data) s = .next (t.setEntry r.entry (some { x with work := .held n }))) ∧
    (∀ n, x.work = .fusingUnderLock n true → (s.port x.owner).state = .active ∨ (s.port x.owner).state = .paused →
      exec (.completion status data) s =
        .next ((t.setEntry r.entry (some { x with work := .held n })).expired r.entry x (s.port x.owner).fault))

/-- R144. -/
def Obligations.CompletionOutsideUpIsDiscarded : Prop :=
  ∀ (s : State) (status : CompletionStatus) (data : Word), s.mem.state ≠ .up →
    exec (.completion status data) s = .next s

/-- R145: with no accepted transfer outstanding a completion takes the memory port DOWN with cause UNEXPECTED, and an offered transfer
not yet accepted leaves the list and is handed to its origin as failed, whichever the origin is. -/
def Obligations.UnexpectedCompletionTakesThePortDown : Prop :=
  ∀ (s : State) (status : CompletionStatus) (data : Word), s.mem.state = .up →
    (s.mem.outstanding = [] →
      exec (.completion status data) s = .next (s.setMem { s.mem with state := .down .unexpected })) ∧
    (∀ i, s.mem.outstanding = [i] → i.accepted = false →
      let taken := s.setMem { s.mem with state := .down .unexpected, outstanding := [] }
      exec (.completion status data) s = .next (taken.hand i .failed).settled ∧ taken.TakesFailure i (taken.hand i .failed) ∧
        (taken.hand i .failed).settled.mem = { s.mem with state := .down .unexpected, outstanding := [] }) ∧
    (∀ i p id, s.mem.outstanding = [i] → i.accepted = false → i.origin = .request p id .plain →
      exec (.completion status data) s =
        .next ((s.setMem { s.mem with state := .down .unexpected, outstanding := [] }).modPort p
          (fun x => x.setResp id (.complete ⟨.memError, 0, Flags.zero⟩))))

/-- R139, R140: once the front transfer has reached the limit, accepted or not, the memory port is DOWN with cause TIMEOUT, the list is
empty, and then each of its transfers is handed to its origin as failed, oldest first, with the effect that its origin gives it; what
waits on the write-back list stays. That the teardowns which a deferred expiry brings follow after every transfer has been handed is
deduced (log 10). Before the limit nothing changes (log 4); the limit is counted in quanta (log 2). A completion of the front passes the
limit to the next transfer: where that has already reached it, the completed transfer is handed to its origin first, and the expiry
follows at once and fails the rest (R141). -/
def Obligations.ResponseLimitFailsEveryTransfer : Prop :=
  ∀ (s : State) (i : OutItem) (rest : List OutItem), s.mem.state = .up → s.mem.outstanding = i :: rest →
    (s.mem.limit.toNat * s.perMicrosecond ≤ s.clock.now - i.issueTime →
      (exec .responseLimitExpiry s = .next (failAll (.of (s.setMem { s.mem with state := .down .timeout, outstanding := [] }))
        (i :: rest)).settled) ∧
      (∀ a, failAll a [] = a) ∧ (∀ a j l, failAll a (j :: l) = failAll (a.andThen (fun t => t.hand j .failed)) l) ∧
      (∀ (t : State) j, t.TakesFailure j (t.hand j .failed)) ∧
      (∃ t, exec .responseLimitExpiry s = .next t ∧ t.mem = { s.mem with state := .down .timeout, outstanding := [] } ∧
        t.ops.writeBack = s.ops.writeBack ∧ t.regions = s.regions ∧ t.link = s.link) ∧
      (∀ p id, rest = [] → i.origin = .request p id .plain → exec .responseLimitExpiry s =
        .next ((s.setMem { s.mem with state := .down .timeout, outstanding := [] }).modPort p
          (fun x => x.setResp id (.complete ⟨.memError, 0, Flags.zero⟩))))) ∧
    (s.clock.now - i.issueTime < s.mem.limit.toNat * s.perMicrosecond → exec .responseLimitExpiry s = .next s) ∧
    (i.accepted = true → ∀ status data,
      let brought := (s.popFront rest).hand i (CompletionStatus.brings status data)
      let down : MemPort := { s.mem with state := .down .timeout, outstanding := [] }
      (s.FrontInTime rest → exec (.completion status data) s = .next brought.settled) ∧
      (status = .dataError → (s.popFront rest).TakesFailure i brought) ∧
      (∀ j behind, rest = j :: behind → s.mem.limit.toNat * s.perMicrosecond ≤ s.clock.now - j.issueTime →
        ∃ t, exec (.completion status data) s = .next t ∧
          t = (failAll ⟨brought.state.setMem down, brought.fenced⟩ rest).settled ∧ t.mem = down ∧
          ∀ p id q id' a, i.origin = .request p id .plain → behind = [] → j.origin = .request q id' .plain →
            (status = .ok ∧ a = ⟨.done, if i.transfer.dir = .read then i.transfer.width.low data else 0, Flags.zero⟩ ∨
              status = .dataError ∧ a = ⟨.memError, 0, Flags.zero⟩) →
            t = ((s.setMem down).modPort p (fun x => x.setResp id (.complete a))).modPort q
              (fun x => x.setResp id' (.complete ⟨.memError, 0, Flags.zero⟩))))

/-- R143: MEM_IDLE asserted in SETTLING takes the memory port UP; in UP and DOWN its level changes nothing else. The command carries
the level (log 7). -/
def Obligations.MemIdleTakesThePortUp : Prop :=
  ∀ (s : State) (level : Bool),
    (s.mem.state = .settling → level = true → exec (.passageToUp level) s =
      .next ((s.setPins { s.pins with memIdle := true }).setMem { s.mem with state := .up })) ∧
    (s.mem.state ≠ .settling ∨ level = false →
      exec (.passageToUp level) s = .next (s.setPins { s.pins with memIdle := level }))

/-! ### Resets -/

/-- R19, R21, R32, R49, R116, R142, R179: what a device reset leaves, by the levels of DEFCFG, PRST_N, MCS_N and MEM_IDLE. The levels
are held through it, and MEM_IDLE asserted already takes SETTLING to UP within it (log 6). -/
def Obligations.DeviceResetLeavesTheResetState : Prop :=
  ∀ (s : State) (defcfg : Bool), ∃ t, exec (.deviceReset defcfg) s = .next t ∧
    (∀ p : Port, (t.port p).state = (if defcfg = true ∧ s.prst p = false then .active else .offline) ∧
      (t.port p).profile = (if defcfg then ⟨true, 2, 1000, true, false⟩ else ⟨false, 1, 100, false, false⟩) ∧
      (t.port p).held = none ∧ (t.port p).queue = [] ∧ (t.port p).resp = [] ∧ (t.port p).fault = .empty ∧
      t.heldLines p = [] ∧ t.record p = none) ∧
    (∀ g : RegionIx, t.regions[g] = if defcfg = true ∧ g = 0 then ⟨true, 0, 0xFFFFFF, 0xF, true, true, true, true, true, false⟩
      else ⟨false, 0, 0, 0, false, false, false, false, false, false⟩) ∧
    (∀ e, t.entry e = none) ∧ t.table.handover = [] ∧ t.table.entryWait = [] ∧ t.ops.writeBack = [] ∧
    t.mem = ⟨if s.pins.memIdle then .up else .settling, [], 64, 3⟩ ∧
    t.link = (if s.pins.mcs then .deselectWait else .idle) ∧ t.pins = { s.pins with defcfg := defcfg } ∧ t.alert = false

/-- R22, R155, R167, R168: at the assertion of its PRST_N the port goes OFFLINE and is torn down, its locks with it, and then its queue,
response list and record are discarded; an entry that still names it is detached or FUSING FRESH with its record. Its profile stays, and
so do the region table, the memory port and the other ports' own registers. Deasserted, an OFFLINE port goes to ACTIVE where its profile
is enabled, and otherwise stays. -/
def Obligations.PortResetDropsThePort : Prop :=
  ∀ (s : State) (p : Port),
    (s.prst p = false → ∃ t, exec (.prstNAsserted p) s = .next t ∧
      t = (((s.setPins { s.pins with prst := s.pins.prst.set p true }).modPort p (fun x => { x with state := .offline })).teardown
        p).modPort p (fun x => { x with held := none, queue := [], resp := [], fault := .empty }) ∧
      t.OwnsOnlyWorkInFlight p ∧ t.prst p = true ∧
      (t.port p).state = .offline ∧ (t.port p).profile = (s.port p).profile ∧ (t.port p).held = none ∧
      (t.port p).queue = [] ∧ (t.port p).resp = [] ∧ (t.port p).fault = .empty ∧ t.Absent p ∧ t.regions = s.regions ∧
      t.mem = s.mem ∧ t.link = s.link ∧
      ∀ q, q ≠ p → t.prst q = s.prst q ∧ (t.port q).state = (s.port q).state ∧ (t.port q).profile = (s.port q).profile ∧
        (t.port q).queue = (s.port q).queue ∧ (t.port q).fault = (s.port q).fault) ∧
    (s.prst p = true → (s.port p).state = .offline →
      let lifted := s.setPins { s.pins with prst := s.pins.prst.set p false }
      ((s.port p).profile.enabled = true →
        exec (.prstNDeasserted p) s = .next (lifted.modPort p (fun x => { x with state := .active }))) ∧
      ((s.port p).profile.enabled = false → exec (.prstNDeasserted p) s = .next lifted))

/-! ### The maintenance link -/

/-- R173, R174, R175, R176, R177, R178, R179, R195: MCS_N falling in IDLE begins a frame in COMMAND; a command byte with arguments opens
ARGUMENTS; an argument byte before the last is kept in order; a byte that is none of the thirteen codes is answered BAD-COMMAND
alone; a reply goes out byte by byte and ends in TRAILING; MCS_N rising ends the frame in any phase. Nothing else changes. A byte is
eight bits, most significant first, each way: a bit clocked joins those of its position, and the eighth makes the receipt of the byte,
which is the next command taken (log 8). The bit on MDO is the one that follows those clocked, from MCS_N falling on, and the bits of a
position cut short are dropped. -/
def Obligations.FramesBeginMoveAndEnd : Prop :=
  ∀ (s : State) (b : Byte),
    (s.pins.mcs = false → s.link = .idle →
      exec .mcsNFalling s = .next ((s.setPins { s.pins with mcs := true }).setLink .command)) ∧
    (s.pins.mcs = true → exec .mcsNRising s = .next ((s.setPins { s.pins with mcs := false }).setLink .idle)) ∧
    (s.link = .command →
      b ∉ ([0x10, 0x11, 0x12, 0x13, 0x14, 0x21, 0x22, 0x23, 0x24, 0x31, 0x32, 0x33, 0x34] : List Byte) →
      exec (.badCommand b) s = .next (s.replied [0xA1])) ∧
    (∀ c, s.link = .command → MaintCommand.ofByte b = some c → c.argCount ≠ 0 →
      exec (.byteReceived b) s = .next (s.setLink (.arguments c []))) ∧
    (∀ c got, s.link = .arguments c got → got.length + 1 < c.argCount →
      exec (.byteReceived b) s = .next (s.setLink (.arguments c (got ++ [b])))) ∧
    (∀ bytes sent, s.link = .reply bytes sent → s.link.mdo = some (bytes.getD sent 0) ∧
      (sent + 1 < bytes.length → exec (.byteReceived b) s = .next (s.setLink (.reply bytes (sent + 1)))) ∧
      (sent + 1 = bytes.length → exec (.byteReceived b) s = .next (s.setLink .trailing))) ∧
    (s.link = .trailing ∨ s.link = .deselectWait → s.link.mdo = some 0 ∧ exec (.byteReceived b) s = .next s) ∧
    (∀ l, s.setLink l = { s with link := l, shift := [] }) ∧
    (s.link = .command ∨ (∃ c got, s.link = .arguments c got) → s.link.mdo = some 0) ∧
    (s.link = .idle → s.mdo = none) ∧
    (∀ y, s.link.mdo = some y → s.shift.length < 8 → s.mdo = some (y.getMsbD s.shift.length)) ∧
    (∀ bit later, s.wire = some bit :: later →
      s.tick.wire = later ∧ s.tick.link = s.link ∧
      (s.link = .idle ∨ s.link = .deselectWait ∨ s.link = .trailing → s.tick.shift = s.shift ∧ s.tick.pending = s.pending) ∧
      (s.link = .command ∨ (∃ c got, s.link = .arguments c got) ∨ (∃ bytes sent, s.link = .reply bytes sent) →
        s.tick.shift = s.shift ++ [bit] ∧ (s.shift.length < 7 → s.tick.pending = s.pending) ∧
        (s.shift.length = 7 → (∀ n < 8, (s.shift ++ [bit])[n]? = some (b.getMsbD n)) →
          s.tick.pending = s.pending ++ [s.link.row b]))) ∧
    ((MaintCommand.ofByte b = none → Frame.command.row b = .badCommand b) ∧
      (∀ c, MaintCommand.ofByte b = some c → Frame.command.row b = if c.argCount = 0 then c.row b else .byteReceived b) ∧
      (∀ c got, (Frame.arguments c got).row b = if got.length + 1 = c.argCount then c.row b else .byteReceived b) ∧
      ∀ bytes sent, (Frame.reply bytes sent).row b = .byteReceived b)

/-- R181, R182, R183, R184, R185, R197: the five read commands reply OK with their 7, 27, 8, 12 and 7 bytes and change nothing else; an
argument out of range is BAD-ARG. -/
def Obligations.ReadCommandsReplyAndChangeNothing : Prop :=
  ∀ (s : State) (b : Byte),
    (s.link = .command → exec .readStatus s = .next (s.replied (0xA0 :: s.statusBytes)) ∧ s.statusBytes.length = 7 ∧
      exec .readMemoryPort s = .next (s.replied (0xA0 :: s.memoryBytes)) ∧ s.memoryBytes.length = 7) ∧
    (s.link = .arguments .readPort [] →
      (∀ p : Port, b.toNat = p.val →
        exec (.readPort b) s = .next (s.replied (0xA0 :: s.portBytes p)) ∧ (s.portBytes p).length = 27) ∧
      (4 ≤ b.toNat → exec (.readPort b) s = .next (s.replied [0xA2]))) ∧
    (s.link = .arguments .readRegion [] →
      (∀ g : RegionIx, b.toNat = g.val →
        exec (.readRegion b) s = .next (s.replied (0xA0 :: s.regions[g].bytes)) ∧ s.regions[g].bytes.length = 8) ∧
      (16 ≤ b.toNat → exec (.readRegion b) s = .next (s.replied [0xA2]))) ∧
    (s.link = .arguments .readLock [] →
      (∀ e : EntryIx, b.toNat = e.val →
        exec (.readLock b) s = .next (s.replied (0xA0 :: s.lockBytes e)) ∧ (s.lockBytes e).length = 12) ∧
      (8 ≤ b.toNat → exec (.readLock b) s = .next (s.replied [0xA2])))

/-- R33, R172, R181, R197: the seven bytes of READ-STATUS: port states, occupied records, the memory port's state, ALERT_N and quiet,
which are what R172 and R33 say, the lengths of the lists, the operation records, the entry-wait list, and the entries not FREE. The
outstanding, handover, write-back and entry-wait lists hold at most four items (R73, R75, R120, R132). -/
def Obligations.StatusShowsAlertAndQuiet : Prop :=
  ∀ s : State,
    (let b := fun i => s.statusBytes.getD (i - 1) 0
     (∀ p : Port, ((b 1).extractLsb' (2 * p.val) 2).toNat =
        (match (s.port p).state with | .offline => 0 | .active => 1 | .paused => 2 | .fenced => 3) ∧
      ((b 2).getLsbD p.val = true ↔ (s.port p).fault ≠ .empty)) ∧
     ((b 2).extractLsb' 4 2).toNat = (match s.mem.state with | .settling => 0 | .up => 1 | .down _ => 2) ∧
     (s.mem.outstanding.length ≤ 4 → s.table.handover.length ≤ 4 →
       ((b 3).extractLsb' 0 3).toNat = s.mem.outstanding.length ∧ ((b 3).extractLsb' 4 3).toNat = s.table.handover.length) ∧
     (s.ops.writeBack.length ≤ 4 → ((b 4).extractLsb' 0 3).toNat = s.ops.writeBack.length ∧
       ∀ p : Port, (b 4).getLsbD (4 + p.val) = (s.record p).isSome) ∧
     (s.table.entryWait.length ≤ 4 → (b 5).toNat = s.table.entryWait.length) ∧
     (∀ i < 4, ((b 6).extractLsb' (2 * i) 2).toNat = (s.table.entryWait[i]?.map Fin.val).getD 0) ∧
     ∀ e : EntryIx, (b 7).getLsbD e.val = (s.entry e).isSome) ∧
    (s.statusBytes.getD 1 0).getLsbD 6 = s.alert ∧ (s.statusBytes.getD 1 0).getLsbD 7 = s.quiet ∧
    (s.alert = true ↔ (∃ p, (s.port p).fault ≠ .empty) ∨ ∃ c, s.mem.state = .down c) ∧
    (s.quiet = true ↔ (∀ p, (s.port p).state ≠ .active) ∧ s.mem.outstanding = [] ∧ s.table.handover = [] ∧
      s.ops.writeBack = [] ∧ ∀ p, s.record p = none)

/-- R182, R183, R197: where READ-PORT and READ-REGION put what they report: the port's states and profile, the lengths of its lists,
its fault record and held lines, and the ten fields of the region. That the cause bit of a line that is not BROKEN is 0 is the model's
choice (log 19). -/
def Obligations.PortAndRegionAreReported : Prop :=
  ∀ s : State,
    (∀ p : Port, (s.port p).inbound ≤ 8 → (s.port p).resp.length ≤ 4 → (s.heldLines p).length ≤ 2 →
      let b := fun i => (s.portBytes p).getD (i - 1) 0
      let f := (s.port p).profile
      let reported := fun (condition : Nat) (r : Report) (second : Nat) =>
        ((b 9).extractLsb' 0 2).toNat = condition ∧ (b 9).getLsbD 7 = r.culprit.isSome ∧ (b 10).toNat = r.kind.code.toNat ∧
        (b 11).toNat = second ∧ b 13 ++ b 14 ++ b 15 ++ b 16 = r.addr ∧ ∀ c, r.culprit = some c →
          (b 12).extractLsb' 0 4 = c.tag ∧ (b 12).extractLsb' 4 3 = c.kind ∧ ((b 12).getLsbD 7 = true ↔ c.priv = .user)
      (((b 1).extractLsb' 0 2).toNat = (match (s.port p).state with | .offline => 0 | .active => 1 | .paused => 2 | .fenced => 3) ∧
        (b 1).getLsbD 2 = s.prst p ∧ (b 1).getLsbD 3 = s.blocked p ∧ (b 1).getLsbD 4 = (s.record p).isSome) ∧
      ((b 2).getLsbD 7 = f.enabled ∧ (b 2).getLsbD 6 = f.fusedAllowed ∧ (b 2).getLsbD 5 = f.capUser ∧
        (b 2).extractLsb' 0 2 = f.lockLimit ∧ b 3 ++ b 4 = f.holdLimit.setWidth 16) ∧
      (((b 5).extractLsb' 0 4).toNat = (s.port p).inbound ∧ (b 5).getLsbD 4 = (s.port p).held.isSome ∧
        (b 6).toNat = (s.port p).resp.length ∧ ∀ i < 4,
          ((b (7 + i / 2)).extractLsb' (4 * (1 - i % 2)) 4).toNat = ((s.port p).resp[i]?.map (fun r => r.state.code)).getD 0) ∧
      (match (s.port p).fault with
        | .empty => ∀ i, 9 ≤ i → i ≤ 16 → b i = 0
        | .first r => reported 1 r 0
        | .two r k => reported 2 r k.code.toNat) ∧
      (b 17).toNat = (s.heldLines p).length ∧ ∀ i < 2, ∀ h : HeldLine, (s.heldLines p)[i]? = some h →
        ((b (18 + 5 * i)).extractLsb' 0 3).toNat = h.state.code ∧
        ((b (18 + 5 * i)).getLsbD 4 = true ↔ h.state = .broken .maintenance) ∧
        b (19 + 5 * i) ++ b (20 + 5 * i) ++ b (21 + 5 * i) ++ b (22 + 5 * i) = h.line.setWidth 32) ∧
    ∀ g : RegionIx,
      let b := fun i => (s.regions[g].bytes).getD (i - 1) 0
      ((b 1).getLsbD 7 = s.regions[g].valid ∧ (b 1).getLsbD 5 = s.regions[g].sr ∧ (b 1).getLsbD 4 = s.regions[g].sw ∧
        (b 1).getLsbD 3 = s.regions[g].ur ∧ (b 1).getLsbD 2 = s.regions[g].uw ∧ (b 1).getLsbD 1 = s.regions[g].lock ∧
        (b 1).getLsbD 0 = s.regions[g].readthru) ∧
      (b 2).extractLsb' 0 4 = s.regions[g].mask ∧ b 3 ++ b 4 ++ b 5 = s.regions[g].base ∧
      b 6 ++ b 7 ++ b 8 = s.regions[g].limit

/-- R78, R80, R184, R185, R197: where READ-LOCK and READ-MEMORY-PORT put what they report. A FREE entry reads all zero; hold remaining
is rounded up to whole microseconds, and reads 0 where no timer is, as the suspended bit does (R46; of a detached UNDER-LOCK entry the
model deduces it, log 12). -/
def Obligations.LockAndMemoryPortAreReported : Prop :=
  ∀ s : State,
    (∀ e, s.entry e = none → s.lockBytes e = List.replicate 12 0) ∧
    (∀ e x, s.entry e = some x → x.waiters.length ≤ 3 →
      let b := fun i => (s.lockBytes e).getD (i - 1) 0
      let remaining := (b 7 ++ b 8).toNat * s.perMicrosecond
      ((b 1).extractLsb' 0 3).toNat = (match x.work with | .acquiring _ => 1 | .held _ => 2 | .releasing _ => 3 | _ => 4) ∧
      ((b 1).getLsbD 3 = true ↔ x.work = .fusingDetached ∨ ∃ n due, x.work = .fusingUnderLock n due) ∧
      ((b 1).getLsbD 4 = true ↔ x.work = .acquiring true ∨ x.work = .releasing true ∨ x.work = .fusingDetached) ∧
      ((b 1).getLsbD 5 = true ↔ ∃ n, x.work = .fusingUnderLock n true) ∧
      (∀ n, x.work = .held n ∨ (∃ due, x.work = .fusingUnderLock n due) →
        ((b 1).getLsbD 6 = true ↔ (s.port x.owner).state = .paused) ∧
        (n ≤ 1023 * s.perMicrosecond → n ≤ remaining ∧ remaining < n + s.perMicrosecond)) ∧
      ((∀ n, x.work ≠ .held n ∧ ∀ due, x.work ≠ .fusingUnderLock n due) → (b 1).getLsbD 6 = false ∧ b 7 ++ b 8 = 0#16) ∧
      (b 2).toNat = x.owner.val ∧ b 3 ++ b 4 ++ b 5 ++ b 6 = x.line.setWidth 32 ∧
      (b 9).toNat = x.waiters.length ∧ ∀ i < 3, (b (10 + i)).toNat = (x.waiters[i]?.map Fin.val).getD 0) ∧
    (s.mem.outstanding.length ≤ 4 →
      let b := fun i => s.memoryBytes.getD (i - 1) 0
      ((b 1).extractLsb' 0 2).toNat = (match s.mem.state with | .settling => 0 | .up => 1 | .down _ => 2) ∧
      ((b 1).extractLsb' 2 2).toNat = (match s.mem.state with | .down .timeout => 1 | .down .unexpected => 2 | _ => 0) ∧
      (b 1).getLsbD 4 = s.pins.memIdle ∧ ((b 1).extractLsb' 6 2).toNat = s.mem.pointer.val ∧ b 2 = s.mem.limit ∧
      (b 3).toNat = s.mem.outstanding.length ∧ ∀ i < 4,
        (s.mem.outstanding[i]? = none → b (4 + i) = 0) ∧ ∀ x, s.mem.outstanding[i]? = some x →
          ((b (4 + i)).extractLsb' 0 3).toNat = x.origin.code ∧ ((b (4 + i)).extractLsb' 3 2).toNat = x.origin.port.val ∧
          ((b (4 + i)).getLsbD 5 = true ↔ x.transfer.dir = .write) ∧ (b (4 + i)).getLsbD 6 = x.accepted)

/-! ### Port and fault commands -/

/-- R20, R27, R186, R196: WRITE-PROFILE is judged in R20's order, and accepted it replaces all five fields: a PAUSED port stays PAUSED,
or is dropped where enabled is 0; an OFFLINE one goes to PAUSED where enabled is 1 and PRST_N is deasserted. -/
def Obligations.WriteProfileIsJudgedInOrder : Prop :=
  ∀ (s : State) (p : Port) (b1 b2 b3 b4 b5 : Byte), s.link = .arguments .writeProfile [b1, b2, b3, b4] →
    (4 ≤ b1.toNat → exec (.writeProfile b5) s = .next (s.replied [0xA2])) ∧
    (b1.toNat = p.val →
      let f : Profile := ⟨b2.getLsbD 7, b2.extractLsb' 0 2, (b3 ++ b4).extractLsb' 0 10, b2.getLsbD 6, b2.getLsbD 5⟩
      let bad := f.holdLimit = 0 ∨ f.lockLimit = 0 ∨ f.lockLimit = 3 ∨ b5 ≠ ~~~ b2
      ((s.port p).state = .active ∨ (s.port p).state = .fenced → exec (.writeProfile b5) s = .next (s.replied [0xA3])) ∧
      ((s.port p).state = .paused ∨ (s.port p).state = .offline →
        (bad → exec (.writeProfile b5) s = .next (s.replied [0xA2])) ∧
        (¬ bad → f.enabled = true ∧ f.lockLimit.toNat < (s.heldLines p).length →
          exec (.writeProfile b5) s = .next (s.replied [0xA5])) ∧
        (¬ bad → f.enabled = false ∨ (s.heldLines p).length ≤ f.lockLimit.toNat →
          ((s.port p).state = .paused → f.enabled = true → exec (.writeProfile b5) s =
            .next ((s.modPort p (fun x => { x with profile := f })).replied [0xA0])) ∧
          ((s.port p).state = .paused → f.enabled = false → exec (.writeProfile b5) s =
            .next (((s.modPort p (fun x => { x with profile := f })).drop p).replied [0xA0])) ∧
          ((s.port p).state = .offline → f.enabled = true ∧ s.prst p = false → exec (.writeProfile b5) s =
            .next ((s.modPort p (fun x => { x with profile := f, state := .paused })).replied [0xA0])) ∧
          ((s.port p).state = .offline → f.enabled = false ∨ s.prst p = true → exec (.writeProfile b5) s =
            .next ((s.modPort p (fun x => { x with profile := f })).replied [0xA0])))))

/-- R17, R23, R24, R102, R103, R187: PAUSE-PORT takes an ACTIVE port to PAUSED and withdraws its waiting request: off its list, the
others keeping their order, its entry off the response list, and its held place the head again. RESUME-PORT takes a PAUSED port to
ACTIVE. Each is OK without effect on a port already there, and WRONG-STATE on a FENCED or OFFLINE one. -/
def Obligations.PauseAndResumeThePort : Prop :=
  ∀ (s : State) (p : Port) (b : Byte),
    (s.link = .arguments .pausePort [] →
      (4 ≤ b.toNat → exec (.pausePort b) s = .next (s.replied [0xA2])) ∧
      (b.toNat = p.val →
        ((s.port p).state = .active →
          let left := fun l : List Port => l.filter (fun q => q != p)
          let table : Interlock := { s.table with
            entries := s.table.entries.map (Option.map (fun x => { x with waiters := left x.waiters }))
            entryWait := left s.table.entryWait }
          exec (.pausePort b) s = .next ((({ s with table := table } : State).modPort p (fun x => { x with
            state := .paused
            held := none
            queue := (x.held.map HeldPlace.request).toList ++ x.queue
            resp := x.resp.filter (fun r => decide (r.state ≠ .parked ∧ r.state ≠ .entryWait)) })).replied [0xA0])) ∧
        ((s.port p).state = .paused → exec (.pausePort b) s = .next (s.replied [0xA0])) ∧
        ((s.port p).state = .fenced ∨ (s.port p).state = .offline → exec (.pausePort b) s = .next (s.replied [0xA3])))) ∧
    (s.link = .arguments .resumePort [] →
      (4 ≤ b.toNat → exec (.resumePort b) s = .next (s.replied [0xA2])) ∧
      (b.toNat = p.val →
        ((s.port p).state = .paused →
          exec (.resumePort b) s = .next ((s.modPort p (fun x => { x with state := .active })).replied [0xA0])) ∧
        ((s.port p).state = .active → exec (.resumePort b) s = .next (s.replied [0xA0])) ∧
        ((s.port p).state = .fenced ∨ (s.port p).state = .offline → exec (.resumePort b) s = .next (s.replied [0xA3]))))

/-- R26, R188. -/
def Obligations.AckFaultEmptiesTheRecord : Prop :=
  ∀ (s : State) (p : Port) (b : Byte), s.link = .arguments .ackFault [] →
    (4 ≤ b.toNat → exec (.ackFault b) s = .next (s.replied [0xA2])) ∧
    (b.toNat = p.val →
      ((s.port p).fault ≠ .empty → (s.port p).state = .fenced → exec (.ackFault b) s =
        .next ((s.modPort p (fun x => { x with fault := .empty, state := .paused })).replied [0xA0])) ∧
      ((s.port p).fault ≠ .empty → (s.port p).state ≠ .fenced → exec (.ackFault b) s =
        .next ((s.modPort p (fun x => { x with fault := .empty })).replied [0xA0])) ∧
      ((s.port p).fault = .empty → exec (.ackFault b) s = .next (s.replied [0xA3])) ∧
      (s.PortStatesLegal → (s.port p).state = .offline → exec (.ackFault b) s = .next (s.replied [0xA3])))

/-! ### Table and memory commands -/

/-- R33, R189, R196: WRITE-REGION judges the region number, then a valid entry whose base is above its limit, then quiet, and replaces
all ten fields of the entry at once. -/
def Obligations.WriteRegionNeedsQuiet : Prop :=
  ∀ (s : State) (g : RegionIx) (n flags mask b1 b2 b3 l1 l2 l3 : Byte),
    s.link = .arguments .writeRegion [n, flags, mask, b1, b2, b3, l1, l2] →
    (16 ≤ n.toNat → exec (.writeRegion l3) s = .next (s.replied [0xA2])) ∧
    (n.toNat = g.val →
      (flags.getLsbD 7 = true ∧ l1 ++ l2 ++ l3 < b1 ++ b2 ++ b3 → exec (.writeRegion l3) s = .next (s.replied [0xA2])) ∧
      (flags.getLsbD 7 = false ∨ b1 ++ b2 ++ b3 ≤ l1 ++ l2 ++ l3 →
        (s.quiet = false → exec (.writeRegion l3) s = .next (s.replied [0xA4])) ∧
        (s.quiet = true → exec (.writeRegion l3) s =
          .next (({ s with regions := s.regions.set g ⟨flags.getLsbD 7, b1 ++ b2 ++ b3, l1 ++ l2 ++ l3, mask.extractLsb' 0 4,
            flags.getLsbD 5, flags.getLsbD 4, flags.getLsbD 3, flags.getLsbD 2, flags.getLsbD 1, flags.getLsbD 0⟩ }).replied
              [0xA0]))))

/-- R91, R190: a HELD entry is broken with cause MAINTENANCE and freed with handover, with no fault; any other is BUSY. -/
def Obligations.BreakLockBreaksAHeldEntry : Prop :=
  ∀ (s : State) (e : EntryIx) (b : Byte), s.link = .arguments .breakLock [] →
    (8 ≤ b.toNat → exec (.breakLock b) s = .next (s.replied [0xA2])) ∧
    (b.toNat = e.val →
      (∀ x n, s.entry e = some x → x.work = .held n → exec (.breakLock b) s =
        .next (((s.changeHeld x.owner x.line (.broken .maintenance)).freeEntry e).replied [0xA0])) ∧
      ((∀ x n, s.entry e = some x → x.work ≠ .held n) → exec (.breakLock b) s = .next (s.replied [0xA5])))

/-- R191. -/
def Obligations.SetResponseLimitIsJudged : Prop :=
  ∀ (s : State) (v : Byte), s.link = .arguments .setResponseLimit [] →
    (v = 0 → exec (.setResponseLimit v) s = .next (s.replied [0xA2])) ∧
    (v ≠ 0 → s.mem.outstanding ≠ [] → exec (.setResponseLimit v) s = .next (s.replied [0xA5])) ∧
    (v ≠ 0 → s.mem.outstanding = [] →
      exec (.setResponseLimit v) s = .next ((s.setMem { s.mem with limit := v }).replied [0xA0]))

/-- R192. -/
def Obligations.RecoverMemoryLeavesDown : Prop :=
  ∀ s : State, s.link = .command →
    (∀ c, s.mem.state = .down c → s.pins.memIdle = false →
      exec .recoverMemory s = .next ((s.setMem { s.mem with state := .settling }).replied [0xA0])) ∧
    (∀ c, s.mem.state = .down c → s.pins.memIdle = true →
      exec .recoverMemory s = .next ((s.setMem { s.mem with state := .up }).replied [0xA0])) ∧
    (s.mem.state = .settling ∨ s.mem.state = .up → exec .recoverMemory s = .next (s.replied [0xA3])) ∧
    (∀ c t, s.mem.state = .down c → (∀ p, (s.port p).fault = .empty) → exec .recoverMemory s = .next t →
      s.alert = true ∧ t.alert = false)

/-- R18, R19, R28, R32, R136, R139: a region changes only at WRITE-REGION, a profile only at WRITE-PROFILE, the response limit only at
SET-RESPONSE-LIMIT and the pointer only at a grant, device reset apart. -/
def Obligations.SettingsChangeOnlyByTheirCommands : Prop :=
  ∀ (c : Instr) (s t : State), exec c s = .next t → (∀ d, c ≠ .deviceReset d) →
    ((∀ b, c ≠ .writeRegion b) → t.regions = s.regions) ∧
    ((∀ b, c ≠ .writeProfile b) → ∀ p, (t.port p).profile = (s.port p).profile) ∧
    ((∀ b, c ≠ .setResponseLimit b) → t.mem.limit = s.mem.limit) ∧
    (c ≠ .grant → t.mem.pointer = s.mem.pointer)

/-! ### Laws that every step keeps -/

/-- R47. -/
def Obligations.EveryStepKeepsLinesDistinct : Prop :=
  ∀ s t : State, s.LinesDistinct → step s = .next t → t.LinesDistinct

/-- R8, R13, R132. -/
def Obligations.EveryStepKeepsTheListsBounded : Prop :=
  ∀ s t : State, s.OutstandingBounded → s.QueuesBounded → step s = .next t → t.OutstandingBounded ∧ t.QueuesBounded

/-- R22, R155, R156. -/
def Obligations.EveryStepKeepsPortStatesLegal : Prop :=
  ∀ s t : State, s.PortStatesLegal → step s = .next t → t.PortStatesLegal

/-- R18, R20, R28, R148, R173, R176, R177, R178. -/
def Obligations.EveryStepKeepsFramesAndSettingsLegal : Prop :=
  ∀ s t : State, s.FrameLegal → s.SettingsLegal → step s = .next t → t.FrameLegal ∧ t.SettingsLegal

/-- R168. -/
def Obligations.EveryStepKeepsOutOfServicePortsAbsent : Prop :=
  ∀ s t : State, s.OutOfServiceAbsent → step s = .next t → t.OutOfServiceAbsent

/-- R75. -/
def Obligations.EveryStepLeavesNoEntryFreeWhileAPortWaits : Prop :=
  ∀ s t : State, s.NoneFreeWhileWaiting → step s = .next t → t.NoneFreeWhileWaiting

/-- The laws hold of the state right after a device reset, whatever the levels of DEFCFG and the other pins: of every state that
DEVICE_RESET leaves (log 6), of every reset state by its pins, and so of `State.reset`, whose levels are the model's choice (log 5). -/
def Obligations.ResetStateKeepsTheLaws : Prop :=
  let laws := fun s : State => s.LinesDistinct ∧ s.OutstandingBounded ∧ s.QueuesBounded ∧ s.PortStatesLegal ∧ s.FrameLegal ∧
    s.SettingsLegal ∧ s.OutOfServiceAbsent ∧ s.NoneFreeWhileWaiting
  laws State.reset ∧
    (∀ pins wire clock choices pending, laws (State.resetWith pins wire clock choices pending)) ∧
    ∀ (s : State) (defcfg : Bool), ∃ t, exec (.deviceReset defcfg) s = .next t ∧ laws t
end

