-- ==== Sys2Proof/Laws/State.lean ====
section
/-! SUPPORT. What each update of the state does to each part of it: one lemma per part per update, so that no proof unfolds a
record update. -/

namespace Sys2Proof.Machine.State

variable (s : State)

/-! ### modPort -/

@[simp] theorem port_modPort_self (p : Port) (f : PortIf → PortIf) : (s.modPort p f).port p = f (s.port p) := by
  simp [port, modPort]
theorem port_modPort (p : Port) (f : PortIf → PortIf) (q : Port) :
    (s.modPort p f).port q = if q = p then f (s.port p) else s.port q := by
  by_cases h : q = p
  · subst h; simp
  · simp [port, modPort, h, Fin.val_inj, Ne.symm (show (q : Fin _) ≠ p from h)]
@[simp] theorem port_modPort_of_ne (p : Port) (f : PortIf → PortIf) (q : Port) (h : q ≠ p) : (s.modPort p f).port q = s.port q := by
  simp [port_modPort, h]
@[simp] theorem entry_modPort (p : Port) (f : PortIf → PortIf) (i : EntryIx) : (s.modPort p f).entry i = s.entry i := rfl
@[simp] theorem heldLines_modPort (p : Port) (f : PortIf → PortIf) (q : Port) : (s.modPort p f).heldLines q = s.heldLines q := rfl
@[simp] theorem record_modPort (p : Port) (f : PortIf → PortIf) (q : Port) : (s.modPort p f).record q = s.record q := rfl
@[simp] theorem table_handover_modPort (p : Port) (f : PortIf → PortIf) : (s.modPort p f).table.handover = s.table.handover := rfl
@[simp] theorem table_entryWait_modPort (p : Port) (f : PortIf → PortIf) : (s.modPort p f).table.entryWait = s.table.entryWait := rfl
@[simp] theorem ops_writeBack_modPort (p : Port) (f : PortIf → PortIf) : (s.modPort p f).ops.writeBack = s.ops.writeBack := rfl
@[simp] theorem mem_modPort (p : Port) (f : PortIf → PortIf) : (s.modPort p f).mem = s.mem := rfl
@[simp] theorem link_modPort (p : Port) (f : PortIf → PortIf) : (s.modPort p f).link = s.link := rfl
@[simp] theorem pins_modPort (p : Port) (f : PortIf → PortIf) : (s.modPort p f).pins = s.pins := rfl
@[simp] theorem regions_modPort (p : Port) (f : PortIf → PortIf) : (s.modPort p f).regions = s.regions := rfl
@[simp] theorem clock_modPort (p : Port) (f : PortIf → PortIf) : (s.modPort p f).clock = s.clock := rfl
@[simp] theorem choices_modPort (p : Port) (f : PortIf → PortIf) : (s.modPort p f).choices = s.choices := rfl
@[simp] theorem pending_modPort (p : Port) (f : PortIf → PortIf) : (s.modPort p f).pending = s.pending := rfl
@[simp] theorem shift_modPort (p : Port) (f : PortIf → PortIf) : (s.modPort p f).shift = s.shift := rfl
@[simp] theorem wire_modPort (p : Port) (f : PortIf → PortIf) : (s.modPort p f).wire = s.wire := rfl

/-! ### setEntry -/

@[simp] theorem port_setEntry (e : EntryIx) (x : Option Entry) (q : Port) : (s.setEntry e x).port q = s.port q := rfl
@[simp] theorem entry_setEntry_self (e : EntryIx) (x : Option Entry) : (s.setEntry e x).entry e = x := by
  simp [entry, setEntry]
theorem entry_setEntry (e : EntryIx) (x : Option Entry) (i : EntryIx) :
    (s.setEntry e x).entry i = if i = e then x else s.entry i := by
  by_cases h : i = e
  · subst h; simp
  · simp [entry, setEntry, h, Fin.val_inj, Ne.symm (show (i : Fin _) ≠ e from h)]
@[simp] theorem entry_setEntry_of_ne (e : EntryIx) (x : Option Entry) (i : EntryIx) (h : i ≠ e) : (s.setEntry e x).entry i = s.entry i := by
  simp [entry_setEntry, h]
@[simp] theorem heldLines_setEntry (e : EntryIx) (x : Option Entry) (q : Port) : (s.setEntry e x).heldLines q = s.heldLines q := rfl
@[simp] theorem record_setEntry (e : EntryIx) (x : Option Entry) (q : Port) : (s.setEntry e x).record q = s.record q := rfl
@[simp] theorem table_handover_setEntry (e : EntryIx) (x : Option Entry) : (s.setEntry e x).table.handover = s.table.handover := rfl
@[simp] theorem table_entryWait_setEntry (e : EntryIx) (x : Option Entry) : (s.setEntry e x).table.entryWait = s.table.entryWait := rfl
@[simp] theorem ops_writeBack_setEntry (e : EntryIx) (x : Option Entry) : (s.setEntry e x).ops.writeBack = s.ops.writeBack := rfl
@[simp] theorem mem_setEntry (e : EntryIx) (x : Option Entry) : (s.setEntry e x).mem = s.mem := rfl
@[simp] theorem link_setEntry (e : EntryIx) (x : Option Entry) : (s.setEntry e x).link = s.link := rfl
@[simp] theorem pins_setEntry (e : EntryIx) (x : Option Entry) : (s.setEntry e x).pins = s.pins := rfl
@[simp] theorem regions_setEntry (e : EntryIx) (x : Option Entry) : (s.setEntry e x).regions = s.regions := rfl
@[simp] theorem clock_setEntry (e : EntryIx) (x : Option Entry) : (s.setEntry e x).clock = s.clock := rfl
@[simp] theorem choices_setEntry (e : EntryIx) (x : Option Entry) : (s.setEntry e x).choices = s.choices := rfl
@[simp] theorem pending_setEntry (e : EntryIx) (x : Option Entry) : (s.setEntry e x).pending = s.pending := rfl
@[simp] theorem shift_setEntry (e : EntryIx) (x : Option Entry) : (s.setEntry e x).shift = s.shift := rfl
@[simp] theorem wire_setEntry (e : EntryIx) (x : Option Entry) : (s.setEntry e x).wire = s.wire := rfl

/-! ### setHeldLines -/

@[simp] theorem port_setHeldLines (p : Port) (l : List HeldLine) (q : Port) : (s.setHeldLines p l).port q = s.port q := rfl
@[simp] theorem entry_setHeldLines (p : Port) (l : List HeldLine) (i : EntryIx) : (s.setHeldLines p l).entry i = s.entry i := rfl
@[simp] theorem heldLines_setHeldLines_self (p : Port) (l : List HeldLine) : (s.setHeldLines p l).heldLines p = l := by
  simp [heldLines, setHeldLines]
theorem heldLines_setHeldLines (p : Port) (l : List HeldLine) (q : Port) :
    (s.setHeldLines p l).heldLines q = if q = p then l else s.heldLines q := by
  by_cases h : q = p
  · subst h; simp
  · simp [heldLines, setHeldLines, h, Fin.val_inj, Ne.symm (show (q : Fin _) ≠ p from h)]
@[simp] theorem heldLines_setHeldLines_of_ne (p : Port) (l : List HeldLine) (q : Port) (h : q ≠ p) : (s.setHeldLines p l).heldLines q = s.heldLines q := by
  simp [heldLines_setHeldLines, h]
@[simp] theorem record_setHeldLines (p : Port) (l : List HeldLine) (q : Port) : (s.setHeldLines p l).record q = s.record q := rfl
@[simp] theorem table_handover_setHeldLines (p : Port) (l : List HeldLine) : (s.setHeldLines p l).table.handover = s.table.handover := rfl
@[simp] theorem table_entryWait_setHeldLines (p : Port) (l : List HeldLine) : (s.setHeldLines p l).table.entryWait = s.table.entryWait := rfl
@[simp] theorem ops_writeBack_setHeldLines (p : Port) (l : List HeldLine) : (s.setHeldLines p l).ops.writeBack = s.ops.writeBack := rfl
@[simp] theorem mem_setHeldLines (p : Port) (l : List HeldLine) : (s.setHeldLines p l).mem = s.mem := rfl
@[simp] theorem link_setHeldLines (p : Port) (l : List HeldLine) : (s.setHeldLines p l).link = s.link := rfl
@[simp] theorem pins_setHeldLines (p : Port) (l : List HeldLine) : (s.setHeldLines p l).pins = s.pins := rfl
@[simp] theorem regions_setHeldLines (p : Port) (l : List HeldLine) : (s.setHeldLines p l).regions = s.regions := rfl
@[simp] theorem clock_setHeldLines (p : Port) (l : List HeldLine) : (s.setHeldLines p l).clock = s.clock := rfl
@[simp] theorem choices_setHeldLines (p : Port) (l : List HeldLine) : (s.setHeldLines p l).choices = s.choices := rfl
@[simp] theorem pending_setHeldLines (p : Port) (l : List HeldLine) : (s.setHeldLines p l).pending = s.pending := rfl
@[simp] theorem shift_setHeldLines (p : Port) (l : List HeldLine) : (s.setHeldLines p l).shift = s.shift := rfl
@[simp] theorem wire_setHeldLines (p : Port) (l : List HeldLine) : (s.setHeldLines p l).wire = s.wire := rfl

/-! ### setHandover -/

@[simp] theorem port_setHandover (l : List HandoverItem) (q : Port) : (s.setHandover l).port q = s.port q := rfl
@[simp] theorem entry_setHandover (l : List HandoverItem) (i : EntryIx) : (s.setHandover l).entry i = s.entry i := rfl
@[simp] theorem heldLines_setHandover (l : List HandoverItem) (q : Port) : (s.setHandover l).heldLines q = s.heldLines q := rfl
@[simp] theorem record_setHandover (l : List HandoverItem) (q : Port) : (s.setHandover l).record q = s.record q := rfl
@[simp] theorem table_handover_setHandover (l : List HandoverItem) : (s.setHandover l).table.handover = l := rfl
@[simp] theorem table_entryWait_setHandover (l : List HandoverItem) : (s.setHandover l).table.entryWait = s.table.entryWait := rfl
@[simp] theorem ops_writeBack_setHandover (l : List HandoverItem) : (s.setHandover l).ops.writeBack = s.ops.writeBack := rfl
@[simp] theorem mem_setHandover (l : List HandoverItem) : (s.setHandover l).mem = s.mem := rfl
@[simp] theorem link_setHandover (l : List HandoverItem) : (s.setHandover l).link = s.link := rfl
@[simp] theorem pins_setHandover (l : List HandoverItem) : (s.setHandover l).pins = s.pins := rfl
@[simp] theorem regions_setHandover (l : List HandoverItem) : (s.setHandover l).regions = s.regions := rfl
@[simp] theorem clock_setHandover (l : List HandoverItem) : (s.setHandover l).clock = s.clock := rfl
@[simp] theorem choices_setHandover (l : List HandoverItem) : (s.setHandover l).choices = s.choices := rfl
@[simp] theorem pending_setHandover (l : List HandoverItem) : (s.setHandover l).pending = s.pending := rfl
@[simp] theorem shift_setHandover (l : List HandoverItem) : (s.setHandover l).shift = s.shift := rfl
@[simp] theorem wire_setHandover (l : List HandoverItem) : (s.setHandover l).wire = s.wire := rfl

/-! ### setEntryWait -/

@[simp] theorem port_setEntryWait (l : List Port) (q : Port) : (s.setEntryWait l).port q = s.port q := rfl
@[simp] theorem entry_setEntryWait (l : List Port) (i : EntryIx) : (s.setEntryWait l).entry i = s.entry i := rfl
@[simp] theorem heldLines_setEntryWait (l : List Port) (q : Port) : (s.setEntryWait l).heldLines q = s.heldLines q := rfl
@[simp] theorem record_setEntryWait (l : List Port) (q : Port) : (s.setEntryWait l).record q = s.record q := rfl
@[simp] theorem table_handover_setEntryWait (l : List Port) : (s.setEntryWait l).table.handover = s.table.handover := rfl
@[simp] theorem table_entryWait_setEntryWait (l : List Port) : (s.setEntryWait l).table.entryWait = l := rfl
@[simp] theorem ops_writeBack_setEntryWait (l : List Port) : (s.setEntryWait l).ops.writeBack = s.ops.writeBack := rfl
@[simp] theorem mem_setEntryWait (l : List Port) : (s.setEntryWait l).mem = s.mem := rfl
@[simp] theorem link_setEntryWait (l : List Port) : (s.setEntryWait l).link = s.link := rfl
@[simp] theorem pins_setEntryWait (l : List Port) : (s.setEntryWait l).pins = s.pins := rfl
@[simp] theorem regions_setEntryWait (l : List Port) : (s.setEntryWait l).regions = s.regions := rfl
@[simp] theorem clock_setEntryWait (l : List Port) : (s.setEntryWait l).clock = s.clock := rfl
@[simp] theorem choices_setEntryWait (l : List Port) : (s.setEntryWait l).choices = s.choices := rfl
@[simp] theorem pending_setEntryWait (l : List Port) : (s.setEntryWait l).pending = s.pending := rfl
@[simp] theorem shift_setEntryWait (l : List Port) : (s.setEntryWait l).shift = s.shift := rfl
@[simp] theorem wire_setEntryWait (l : List Port) : (s.setEntryWait l).wire = s.wire := rfl

/-! ### setRecord -/

@[simp] theorem port_setRecord (p : Port) (r : Option OpRecord) (q : Port) : (s.setRecord p r).port q = s.port q := rfl
@[simp] theorem entry_setRecord (p : Port) (r : Option OpRecord) (i : EntryIx) : (s.setRecord p r).entry i = s.entry i := rfl
@[simp] theorem heldLines_setRecord (p : Port) (r : Option OpRecord) (q : Port) : (s.setRecord p r).heldLines q = s.heldLines q := rfl
@[simp] theorem record_setRecord_self (p : Port) (r : Option OpRecord) : (s.setRecord p r).record p = r := by
  simp [record, setRecord]
theorem record_setRecord (p : Port) (r : Option OpRecord) (q : Port) :
    (s.setRecord p r).record q = if q = p then r else s.record q := by
  by_cases h : q = p
  · subst h; simp
  · simp [record, setRecord, h, Fin.val_inj, Ne.symm (show (q : Fin _) ≠ p from h)]
@[simp] theorem record_setRecord_of_ne (p : Port) (r : Option OpRecord) (q : Port) (h : q ≠ p) : (s.setRecord p r).record q = s.record q := by
  simp [record_setRecord, h]
@[simp] theorem table_handover_setRecord (p : Port) (r : Option OpRecord) : (s.setRecord p r).table.handover = s.table.handover := rfl
@[simp] theorem table_entryWait_setRecord (p : Port) (r : Option OpRecord) : (s.setRecord p r).table.entryWait = s.table.entryWait := rfl
@[simp] theorem ops_writeBack_setRecord (p : Port) (r : Option OpRecord) : (s.setRecord p r).ops.writeBack = s.ops.writeBack := rfl
@[simp] theorem mem_setRecord (p : Port) (r : Option OpRecord) : (s.setRecord p r).mem = s.mem := rfl
@[simp] theorem link_setRecord (p : Port) (r : Option OpRecord) : (s.setRecord p r).link = s.link := rfl
@[simp] theorem pins_setRecord (p : Port) (r : Option OpRecord) : (s.setRecord p r).pins = s.pins := rfl
@[simp] theorem regions_setRecord (p : Port) (r : Option OpRecord) : (s.setRecord p r).regions = s.regions := rfl
@[simp] theorem clock_setRecord (p : Port) (r : Option OpRecord) : (s.setRecord p r).clock = s.clock := rfl
@[simp] theorem choices_setRecord (p : Port) (r : Option OpRecord) : (s.setRecord p r).choices = s.choices := rfl
@[simp] theorem pending_setRecord (p : Port) (r : Option OpRecord) : (s.setRecord p r).pending = s.pending := rfl
@[simp] theorem shift_setRecord (p : Port) (r : Option OpRecord) : (s.setRecord p r).shift = s.shift := rfl
@[simp] theorem wire_setRecord (p : Port) (r : Option OpRecord) : (s.setRecord p r).wire = s.wire := rfl

/-! ### setWriteBack -/

@[simp] theorem port_setWriteBack (l : List WriteBackItem) (q : Port) : (s.setWriteBack l).port q = s.port q := rfl
@[simp] theorem entry_setWriteBack (l : List WriteBackItem) (i : EntryIx) : (s.setWriteBack l).entry i = s.entry i := rfl
@[simp] theorem heldLines_setWriteBack (l : List WriteBackItem) (q : Port) : (s.setWriteBack l).heldLines q = s.heldLines q := rfl
@[simp] theorem record_setWriteBack (l : List WriteBackItem) (q : Port) : (s.setWriteBack l).record q = s.record q := rfl
@[simp] theorem table_handover_setWriteBack (l : List WriteBackItem) : (s.setWriteBack l).table.handover = s.table.handover := rfl
@[simp] theorem table_entryWait_setWriteBack (l : List WriteBackItem) : (s.setWriteBack l).table.entryWait = s.table.entryWait := rfl
@[simp] theorem ops_writeBack_setWriteBack (l : List WriteBackItem) : (s.setWriteBack l).ops.writeBack = l := rfl
@[simp] theorem mem_setWriteBack (l : List WriteBackItem) : (s.setWriteBack l).mem = s.mem := rfl
@[simp] theorem link_setWriteBack (l : List WriteBackItem) : (s.setWriteBack l).link = s.link := rfl
@[simp] theorem pins_setWriteBack (l : List WriteBackItem) : (s.setWriteBack l).pins = s.pins := rfl
@[simp] theorem regions_setWriteBack (l : List WriteBackItem) : (s.setWriteBack l).regions = s.regions := rfl
@[simp] theorem clock_setWriteBack (l : List WriteBackItem) : (s.setWriteBack l).clock = s.clock := rfl
@[simp] theorem choices_setWriteBack (l : List WriteBackItem) : (s.setWriteBack l).choices = s.choices := rfl
@[simp] theorem pending_setWriteBack (l : List WriteBackItem) : (s.setWriteBack l).pending = s.pending := rfl
@[simp] theorem shift_setWriteBack (l : List WriteBackItem) : (s.setWriteBack l).shift = s.shift := rfl
@[simp] theorem wire_setWriteBack (l : List WriteBackItem) : (s.setWriteBack l).wire = s.wire := rfl

/-! ### setMem -/

@[simp] theorem port_setMem (m : MemPort) (q : Port) : (s.setMem m).port q = s.port q := rfl
@[simp] theorem entry_setMem (m : MemPort) (i : EntryIx) : (s.setMem m).entry i = s.entry i := rfl
@[simp] theorem heldLines_setMem (m : MemPort) (q : Port) : (s.setMem m).heldLines q = s.heldLines q := rfl
@[simp] theorem record_setMem (m : MemPort) (q : Port) : (s.setMem m).record q = s.record q := rfl
@[simp] theorem table_handover_setMem (m : MemPort) : (s.setMem m).table.handover = s.table.handover := rfl
@[simp] theorem table_entryWait_setMem (m : MemPort) : (s.setMem m).table.entryWait = s.table.entryWait := rfl
@[simp] theorem ops_writeBack_setMem (m : MemPort) : (s.setMem m).ops.writeBack = s.ops.writeBack := rfl
@[simp] theorem mem_setMem (m : MemPort) : (s.setMem m).mem = m := rfl
@[simp] theorem link_setMem (m : MemPort) : (s.setMem m).link = s.link := rfl
@[simp] theorem pins_setMem (m : MemPort) : (s.setMem m).pins = s.pins := rfl
@[simp] theorem regions_setMem (m : MemPort) : (s.setMem m).regions = s.regions := rfl
@[simp] theorem clock_setMem (m : MemPort) : (s.setMem m).clock = s.clock := rfl
@[simp] theorem choices_setMem (m : MemPort) : (s.setMem m).choices = s.choices := rfl
@[simp] theorem pending_setMem (m : MemPort) : (s.setMem m).pending = s.pending := rfl
@[simp] theorem shift_setMem (m : MemPort) : (s.setMem m).shift = s.shift := rfl
@[simp] theorem wire_setMem (m : MemPort) : (s.setMem m).wire = s.wire := rfl

/-! ### setLink -/

@[simp] theorem port_setLink (l : Frame) (q : Port) : (s.setLink l).port q = s.port q := rfl
@[simp] theorem entry_setLink (l : Frame) (i : EntryIx) : (s.setLink l).entry i = s.entry i := rfl
@[simp] theorem heldLines_setLink (l : Frame) (q : Port) : (s.setLink l).heldLines q = s.heldLines q := rfl
@[simp] theorem record_setLink (l : Frame) (q : Port) : (s.setLink l).record q = s.record q := rfl
@[simp] theorem table_handover_setLink (l : Frame) : (s.setLink l).table.handover = s.table.handover := rfl
@[simp] theorem table_entryWait_setLink (l : Frame) : (s.setLink l).table.entryWait = s.table.entryWait := rfl
@[simp] theorem ops_writeBack_setLink (l : Frame) : (s.setLink l).ops.writeBack = s.ops.writeBack := rfl
@[simp] theorem mem_setLink (l : Frame) : (s.setLink l).mem = s.mem := rfl
@[simp] theorem link_setLink (l : Frame) : (s.setLink l).link = l := rfl
@[simp] theorem pins_setLink (l : Frame) : (s.setLink l).pins = s.pins := rfl
@[simp] theorem regions_setLink (l : Frame) : (s.setLink l).regions = s.regions := rfl
@[simp] theorem clock_setLink (l : Frame) : (s.setLink l).clock = s.clock := rfl
@[simp] theorem choices_setLink (l : Frame) : (s.setLink l).choices = s.choices := rfl
@[simp] theorem pending_setLink (l : Frame) : (s.setLink l).pending = s.pending := rfl
@[simp] theorem shift_setLink (l : Frame) : (s.setLink l).shift = [] := rfl
@[simp] theorem wire_setLink (l : Frame) : (s.setLink l).wire = s.wire := rfl

/-! ### setPins -/

@[simp] theorem port_setPins (x : Pins) (q : Port) : (s.setPins x).port q = s.port q := rfl
@[simp] theorem entry_setPins (x : Pins) (i : EntryIx) : (s.setPins x).entry i = s.entry i := rfl
@[simp] theorem heldLines_setPins (x : Pins) (q : Port) : (s.setPins x).heldLines q = s.heldLines q := rfl
@[simp] theorem record_setPins (x : Pins) (q : Port) : (s.setPins x).record q = s.record q := rfl
@[simp] theorem table_handover_setPins (x : Pins) : (s.setPins x).table.handover = s.table.handover := rfl
@[simp] theorem table_entryWait_setPins (x : Pins) : (s.setPins x).table.entryWait = s.table.entryWait := rfl
@[simp] theorem ops_writeBack_setPins (x : Pins) : (s.setPins x).ops.writeBack = s.ops.writeBack := rfl
@[simp] theorem mem_setPins (x : Pins) : (s.setPins x).mem = s.mem := rfl
@[simp] theorem link_setPins (x : Pins) : (s.setPins x).link = s.link := rfl
@[simp] theorem pins_setPins (x : Pins) : (s.setPins x).pins = x := rfl
@[simp] theorem regions_setPins (x : Pins) : (s.setPins x).regions = s.regions := rfl
@[simp] theorem clock_setPins (x : Pins) : (s.setPins x).clock = s.clock := rfl
@[simp] theorem choices_setPins (x : Pins) : (s.setPins x).choices = s.choices := rfl
@[simp] theorem pending_setPins (x : Pins) : (s.setPins x).pending = s.pending := rfl
@[simp] theorem shift_setPins (x : Pins) : (s.setPins x).shift = s.shift := rfl
@[simp] theorem wire_setPins (x : Pins) : (s.setPins x).wire = s.wire := rfl

end Sys2Proof.Machine.State
end

