-- ==== Sys2Proof/Laws/Decision.lean ====
section
/-! SUPPORT. What a decision does by the result of its head check and of the interlock stage: one lemma per result, cited in place of
unfolding the decision. -/

namespace Sys2Proof.Machine

/-! ### Two changes of one port -/

theorem State.modPort_modPort (s : State) (p : Port) (f g : PortIf → PortIf) :
    (s.modPort p f).modPort p g = s.modPort p (fun x => g (f x)) := by
  simp [State.modPort]

theorem State.modPort_congr (s : State) (p : Port) (f g : PortIf → PortIf) (h : f (s.port p) = g (s.port p)) :
    s.modPort p f = s.modPort p g := by
  simp only [State.port] at h
  simp only [State.modPort, h]

theorem settled_of (s : State) : (After.of s).settled = s := rfl

/-! ### The head check -/

variable {s : State} {p : Port} {r : Request} {rest : List Request} {c : Checked}

theorem exec_decision (hd : s.decides p = true) (hq : (s.port p).queue = r :: rest) :
    exec (.decision p) s = .next (s.decideHead p r).settled := by
  simp [exec, execDecision, hq, hd]

/-- A head refused by steps 1 to 6 with a fault, over an empty record. -/
theorem decision_refused {o : OutcomeCode} {k : FaultKind} (h : s.Decides p r rest) (hc : s.headCheck p r = .refused o)
    (hk : o.fault = some k) (he : (s.port p).fault = .empty) :
    exec (.decision p) s = .next (s.modPort p (fun x => x.faulted r rest o k)) := by
  obtain ⟨hd, ha, hq⟩ := h
  rw [exec_decision hd hq]
  simp only [State.decideHead, hc, State.reportOutcome, hk]
  simp only [State.report, After.settled, State.enterRefused, State.takeHead, State.modPort_modPort]
  simp only [State.port_modPort_self, PortIf.fencedBy, he, ha, List.foldl_nil, Bool.false_eq_true, if_false]
  congr 1
  apply State.modPort_congr
  simp [PortIf.takeReport, he, ha, PortIf.faulted, PortIf.answered, hq, PortIf.effective, Answer.plain]

/-! ### The interlock stage -/

theorem parked_takeHead (q : Port) : (s.takeHead p).parked q = s.parked q := by
  unfold State.takeHead State.parked
  by_cases h : q = p
  · subst h; simp
  · simp [h]

theorem chainCloses_congr {t : State} (h1 : ∀ e, t.entry e = s.entry e) (h2 : ∀ q, t.parked q = s.parked q) (n : Nat)
    (e : EntryIx) : t.chainCloses p n e = s.chainCloses p n e := by
  have hw : ∀ q, t.waitingOn q = s.waitingOn q := by intro q; simp [State.waitingOn, h1]
  induction n generalizing e with
  | zero => rfl
  | succ n ih => simp [State.chainCloses, h1, h2, hw, ih]

/-- The interlock stage does not see that the head has left the queue. -/
theorem stage_takeHead (c : Checked) (a : Option EntryIx) : (s.takeHead p).stage p c a = s.stage p c a := by
  have hc : ∀ e, (s.takeHead p).tryPark p e = s.tryPark p e := by
    intro e
    simp only [State.tryPark, chainCloses_congr (s := s) (t := s.takeHead p) (fun _ => rfl) (fun q => parked_takeHead q)]
  have hp : ((s.takeHead p).port p).profile = (s.port p).profile := by simp [State.takeHead]
  have ho : (s.takeHead p).own = s.own := rfl
  have hl : (s.takeHead p).lineEntry = s.lineEntry := rfl
  have he : (s.takeHead p).heldEntry = s.heldEntry := rfl
  have hh : (s.takeHead p).heldLines = s.heldLines := rfl
  cases hk : c.kind <;> simp only [State.stage, hk, State.stageRead, State.stageWrite, State.stageLockRead,
    State.stageReleaseWrite, State.stageUnlock, State.stageFused, hc, hp, ho, hl, he, hh]

/-- The lowest-numbered FREE entry is the one a decision takes. -/
theorem entryToTake_of_lowest {e : EntryIx} (h : s.Lowest e) : s.entryToTake = some e := by
  obtain ⟨h1, h2, h3⟩ := h
  have h4 : ∀ f < e, (s.entry f).isNone = false := fun f hf => by simpa [Option.isSome_iff_ne_none] using h3 f hf
  have h5 : (s.entry e).isNone = true := by simp [h2]
  simp only [State.entryToTake, h1, State.lowestFree, allEntries, List.isEmpty_nil, if_true]
  clear h1 h2 h3
  have g0 := h4 0; have g1 := h4 1; have g2 := h4 2; have g3 := h4 3; have g4 := h4 4; have g5 := h4 5; have g6 := h4 6
  clear h4
  fin_cases e <;> simp at g0 g1 g2 g3 g4 g5 g6 h5 <;>
    simp [List.find?, ← Option.not_isSome, g0, g1, g2, g3, g4, g5, g6, h5]

/-- The request of a decision, with the serial its response-list entry takes. -/
abbrev asked (s : State) (p : Port) (r : Request) (c : Checked) : Asking := ⟨p, (s.port p).nextId, r, c, .decision⟩

/-- A head handed to the interlock stage. -/
theorem decision_passed (h : s.Passes p r rest c) :
    exec (.decision p) s = .next ((((asked s p r c).carryOut (s.stage p c s.entryToTake) (s.takeHead p)).freeUnlocked
      (s.stage p c s.entryToTake)).reportResult p r (s.stage p c s.entryToTake)).settled := by
  obtain ⟨⟨hd, ha, hq⟩, hc⟩ := h
  rw [exec_decision hd hq]
  simp only [State.decideHead, hc, State.decideStage, stage_takeHead]
  rfl

/-- A result that is neither a fault nor an UNLOCK. -/
theorem decision_without_fault {x : StageResult} (h : s.Passes p r rest c) (hx : s.stage p c s.entryToTake = x)
    (hf : ∀ o, x = .refuse o → o.fault = none) (hu : ∀ e, x ≠ .unlock e) :
    exec (.decision p) s = .next ((asked s p r c).carryOut x (s.takeHead p)) := by
  rw [decision_passed h, hx]
  cases x with
  | refuse o => simp [State.freeUnlocked, State.reportResult, State.reportOutcome, hf o rfl, After.of, After.settled]
  | unlock e => exact absurd rfl (hu e)
  | giveUp => rfl
  | park e => rfl
  | waitEntry => rfl
  | proceed a => rfl

/-- The head leaves its queue for a new entry of the response list. -/
theorem enter_takeHead {t : State} (h : (t.port p).queue = r :: rest) (st : RespState) (id : Nat)
    (hid : id = (t.port p).nextId) (c : Checked) :
    (⟨p, id, r, c, .decision⟩ : Asking).enter st (t.takeHead p) = t.modPort p (fun x => x.answered r rest st) := by
  subst hid
  simp only [Asking.enter, State.takeHead, State.modPort_modPort]
  apply State.modPort_congr
  simp [PortIf.answered, h]

/-- The same, kept as the held place. -/
theorem enter_hold_takeHead {t : State} (h : (t.port p).queue = r :: rest) (st : RespState) (id : Nat)
    (hid : id = (t.port p).nextId) (c : Checked) :
    (⟨p, id, r, c, .decision⟩ : Asking).enter st ((⟨p, id, r, c, .decision⟩ : Asking).hold (t.takeHead p)) =
      t.modPort p (fun x => x.waiting r rest c st) := by
  subst hid
  simp only [Asking.enter, State.takeHead, Asking.hold, State.modPort_modPort]
  apply State.modPort_congr
  simp [PortIf.waiting, PortIf.answered, h]

/-- An outcome of step 7 that is no fault. -/
theorem decision_answered {o : OutcomeCode} (h : s.Passes p r rest c) (hx : s.stage p c s.entryToTake = .refuse o)
    (hf : o.fault = none) :
    exec (.decision p) s = .next (s.modPort p (fun x => x.answered r rest (.complete ⟨o, 0, Flags.zero⟩))) := by
  rw [decision_without_fault h hx (by intro o'; simp; rintro rfl; exact hf) (by simp)]
  simp only [Asking.carryOut, Asking.refuse]
  rw [enter_takeHead h.1.2.2 _ _ rfl]
  rfl

/-- A fault of step 7, over an empty record. -/
theorem decision_faulted {o : OutcomeCode} {k : FaultKind} (h : s.Passes p r rest c)
    (hx : s.stage p c s.entryToTake = .refuse o) (hk : o.fault = some k) (he : (s.port p).fault = .empty) :
    exec (.decision p) s = .next (s.modPort p (fun x => x.faulted r rest o k)) := by
  rw [decision_passed h, hx]
  simp only [Asking.carryOut, Asking.refuse, State.freeUnlocked, State.reportResult, State.reportOutcome, hk]
  rw [enter_takeHead h.1.2.2 _ _ rfl]
  simp only [State.report, After.settled, State.modPort_modPort, State.port_modPort_self, PortIf.fencedBy, he, h.1.2.1,
    PortIf.answered, List.foldl_nil, Bool.false_eq_true, if_false]
  congr 1
  apply State.modPort_congr
  simp [PortIf.takeReport, he, h.1.2.1, PortIf.faulted, PortIf.answered, PortIf.effective, Answer.plain]

/-- A request that proceeds to memory: MEM-DOWN, or its action (R42). -/
theorem decision_proceeds {a : Action} (h : s.Passes p r rest c) (hx : s.stage p c s.entryToTake = .proceed a) :
    exec (.decision p) s =
      .next (if s.memDown then s.modPort p (fun x => x.answered r rest (.complete ⟨.memDown, 0, Flags.zero⟩))
        else (asked s p r c).act a (s.takeHead p)) := by
  rw [decision_without_fault h hx (by simp) (by simp)]
  simp only [Asking.carryOut, Asking.refuse]
  rw [enter_takeHead h.1.2.2 _ _ rfl]
  rfl

/-! ### Lines -/

theorem lineEntry_eq_none {t : State} {l : Line} (h : ∀ f y, t.entry f = some y → y.line ≠ l) : t.lineEntry l = none := by
  simp only [State.lineEntry, List.find?_eq_none]
  intro f _
  cases hf : t.entry f with
  | none => simp
  | some y => simpa using h f y hf

/-- A freed entry's line has no entry. -/
theorem line_of_freed (hd : s.LinesDistinct) {e : EntryIx} {x : Entry} (hx : s.entry e = some x) :
    ∀ f y, (s.setEntry e none).entry f = some y → y.line ≠ x.line := by
  intro f y hf hl
  by_cases hfe : f = e
  · subst hfe; simp at hf
  · rw [State.entry_setEntry_of_ne _ _ _ _ hfe] at hf
    exact hfe (hd f e y x hf hx hl)

end Sys2Proof.Machine
end

