-- ==== Sys2Proof/Laws/TableWork.lean ====
section
/-! SUPPORT. What the interlock table's shared operations leave alone: everything outside the table, the records, and the states of
response-list entries. One lemma per operation; a proof about a command cites these and never unfolds a walk. -/

namespace Sys2Proof.Machine

/-- The identity of a response-list entry: what no report changes. -/
def RespEntry.key (r : RespEntry) : Nat × Tag × BitVec 3 := (r.id, r.tag, r.kind)

/-- `t` comes from `s` by work inside the interlock table, the operation records and the states of response-list entries. -/
structure TableWork (s t : State) : Prop where
  regions   : t.regions = s.regions
  mem       : t.mem = s.mem
  link      : t.link = s.link
  shift     : t.shift = s.shift
  wire      : t.wire = s.wire
  pins      : t.pins = s.pins
  clock     : t.clock = s.clock
  choices   : t.choices = s.choices
  pending   : t.pending = s.pending
  writeBack : t.ops.writeBack = s.ops.writeBack
  state     : ∀ p, (t.port p).state = (s.port p).state
  profile   : ∀ p, (t.port p).profile = (s.port p).profile
  queue     : ∀ p, (t.port p).queue = (s.port p).queue
  fault     : ∀ p, (t.port p).fault = (s.port p).fault
  nextId    : ∀ p, (t.port p).nextId = (s.port p).nextId
  keys      : ∀ p, (t.port p).resp.map RespEntry.key = (s.port p).resp.map RespEntry.key

namespace TableWork

theorem refl (s : State) : TableWork s s :=
  ⟨rfl, rfl, rfl, rfl, rfl, rfl, rfl, rfl, rfl, rfl, fun _ => rfl, fun _ => rfl, fun _ => rfl, fun _ => rfl, fun _ => rfl, fun _ => rfl⟩

theorem trans {s t u : State} (h : TableWork s t) (k : TableWork t u) : TableWork s u :=
  ⟨k.regions.trans h.regions, k.mem.trans h.mem, k.link.trans h.link, k.shift.trans h.shift, k.wire.trans h.wire, k.pins.trans h.pins, k.clock.trans h.clock,
    k.choices.trans h.choices, k.pending.trans h.pending, k.writeBack.trans h.writeBack,
    fun p => (k.state p).trans (h.state p), fun p => (k.profile p).trans (h.profile p), fun p => (k.queue p).trans (h.queue p),
    fun p => (k.fault p).trans (h.fault p), fun p => (k.nextId p).trans (h.nextId p), fun p => (k.keys p).trans (h.keys p)⟩

/-- The response list keeps its length. -/
theorem length {s t : State} (h : TableWork s t) (p : Port) : (t.port p).resp.length = (s.port p).resp.length := by
  simpa using congrArg List.length (h.keys p)

theorem setEntry (s : State) (e : EntryIx) (x : Option Entry) : TableWork s (s.setEntry e x) := by
  constructor <;> intros <;> rfl

theorem setHeldLines (s : State) (p : Port) (l : List HeldLine) : TableWork s (s.setHeldLines p l) := by
  constructor <;> intros <;> rfl

theorem setHandover (s : State) (l : List HandoverItem) : TableWork s (s.setHandover l) := by
  constructor <;> intros <;> rfl

theorem setEntryWait (s : State) (l : List Port) : TableWork s (s.setEntryWait l) := by
  constructor <;> intros <;> rfl

theorem setRecord (s : State) (p : Port) (r : Option OpRecord) : TableWork s (s.setRecord p r) := by
  constructor <;> intros <;> rfl

/-- A change of a port that keeps its state, profile, queue, record and serial, and the identities of its response list. -/
theorem modPort (s : State) (p : Port) (f : PortIf → PortIf) (h1 : (f (s.port p)).state = (s.port p).state)
    (h2 : (f (s.port p)).profile = (s.port p).profile) (h3 : (f (s.port p)).queue = (s.port p).queue)
    (h4 : (f (s.port p)).fault = (s.port p).fault) (h5 : (f (s.port p)).nextId = (s.port p).nextId)
    (h6 : (f (s.port p)).resp.map RespEntry.key = (s.port p).resp.map RespEntry.key) : TableWork s (s.modPort p f) := by
  constructor
  iterate 10 rfl
  all_goals
    intro q
    by_cases h : q = p
    · subst h; simpa
    · simp [h]

theorem setResp (s : State) (p : Port) (id : Nat) (st : RespState) : TableWork s (s.setResp p id st) := by
  refine modPort s p _ rfl rfl rfl rfl rfl ?_
  simp only [PortIf.setResp, List.map_map]
  refine List.map_congr_left fun r _ => ?_
  simp only [Function.comp]
  split <;> rfl

theorem answer (s : State) (p : Port) (id : Nat) (a : Answer) : TableWork s (s.answer p id a) := setResp s p id _

theorem releaseHeldPlace (s : State) (p : Port) : TableWork s (s.releaseHeldPlace p) := modPort s p _ rfl rfl rfl rfl rfl rfl

theorem changeHeld (s : State) (p : Port) (l : Line) (st : HeldState) : TableWork s (s.changeHeld p l st) := setHeldLines ..

theorem leaveHeld (s : State) (p : Port) (l : Line) : TableWork s (s.leaveHeld p l) := setHeldLines ..

theorem joinHeld (s : State) (p : Port) (l : Line) : TableWork s (s.joinHeld p l) := setHeldLines ..

theorem takeEntry (s : State) (e : EntryIx) (l : Line) (p : Port) (w : EntryWork) : TableWork s (s.takeEntry e l p w) := setEntry ..

theorem setWork (s : State) (e : EntryIx) (w : EntryWork) : TableWork s (s.setWork e w) := by
  unfold State.setWork; split
  · exact refl s
  · exact setEntry ..

theorem setWaiters (s : State) (e : EntryIx) (l : List Port) : TableWork s (s.setWaiters e l) := by
  unfold State.setWaiters; split
  · exact refl s
  · exact setEntry ..

theorem enterUnderLock (s : State) (e : EntryIx) : TableWork s (s.enterUnderLock e) := by
  unfold State.enterUnderLock; split
  · exact refl s
  · exact setEntry ..

theorem leaveWaiters (s : State) (p : Port) (e : EntryIx) : TableWork s (s.leaveWaiters p e) := by
  unfold State.leaveWaiters; split
  · exact refl s
  · exact setEntry ..

/-- Work repeated over a list. -/
theorem foldl {α : Type} (f : State → α → State) (h : ∀ s a, TableWork s (f s a)) (l : List α) (s : State) :
    TableWork s (l.foldl f s) := by
  induction l generalizing s with
  | nil => exact refl s
  | cons a l ih => exact (h s a).trans (ih _)

theorem leaveLists (s : State) (p : Port) : TableWork s (s.leaveLists p) :=
  (foldl _ (fun s e => leaveWaiters s p e) allEntries s).trans (setEntryWait ..)

/-! ### Carrying a result out at a re-decision -/

theorem enter (a : Asking) (h : a.via ≠ .decision) (st : RespState) (s : State) : TableWork s (a.enter st s) := by
  unfold Asking.enter; split
  · exact absurd ‹_› h
  · exact setResp ..
  · exact setResp ..

theorem hold (a : Asking) (s : State) : TableWork s (a.hold s) := modPort s _ _ rfl rfl rfl rfl rfl rfl

theorem send (a : Asking) (h : a.via ≠ .decision) (use : TransferUse) (s : State) : TableWork s (a.send use s) := by
  unfold Asking.send; split
  · exact (setHandover ..).trans (enter a h _ _)
  · exact enter a h _ _
  · exact enter a h _ _

theorem startOperation (a : Asking) (h : a.via ≠ .decision) (op : FusedOp) (mode : FusedMode) (e : EntryIx) (s : State) :
    TableWork s (a.startOperation op mode e s) := by
  unfold Asking.startOperation; split
  · exact ((setRecord ..).trans (enter a h _ _)).trans (setHandover ..)
  · exact (setRecord ..).trans (enter a h _ _)
  · exact (setRecord ..).trans (enter a h _ _)

theorem act (a : Asking) (h : a.via ≠ .decision) (x : Action) (s : State) : TableWork s (a.act x s) := by
  cases x with
  | plain => exact send a h _ _
  | acquire e => exact ((takeEntry ..).trans (joinHeld ..)).trans (send a h _ _)
  | release e => exact ((setWork ..).trans (changeHeld ..)).trans (send a h _ _)
  | fresh e op => exact (takeEntry ..).trans (startOperation a h ..)
  | underLock e op => exact (enterUnderLock ..).trans (startOperation a h ..)

theorem carryOut (a : Asking) (h : a.via ≠ .decision) (r : StageResult) (s : State) : TableWork s (a.carryOut r s) := by
  cases r with
  | refuse o => exact enter a h _ _
  | giveUp => exact (leaveHeld ..).trans (enter a h _ _)
  | unlock e => exact (leaveHeld ..).trans (enter a h _ _)
  | park e => exact ((setWaiters ..).trans (hold a _)).trans (enter a h _ _)
  | waitEntry => exact ((setEntryWait ..).trans (hold a _)).trans (enter a h _ _)
  | proceed x =>
    simp only [Asking.carryOut]
    split
    · exact enter a h _ _
    · exact act a h _ _

/-! ### Re-decision, walks and teardowns -/

theorem redecide (s : State) (q : Port) (e : EntryIx) (via : Via) (h : via ≠ .decision) : TableWork s (s.redecide q e via) := by
  unfold State.redecide; split
  · exact refl s
  · exact (releaseHeldPlace ..).trans (carryOut _ h _ _)

theorem giveEntry (e : EntryIx) (l : List Port) (s : State) : TableWork s (giveEntry e l s) := by
  induction l generalizing s with
  | nil => exact refl s
  | cons q l ih =>
    have h : TableWork s ((s.setEntryWait l).redecide q e .gift) := (setEntryWait ..).trans (redecide _ _ _ _ (by decide))
    simp only [Machine.giveEntry]
    split
    · exact h.trans (ih _)
    · exact h

theorem handoverWalk (e : EntryIx) (l : List Port) (s : State) : TableWork s (handoverWalk e l s) := by
  induction l generalizing s with
  | nil => exact giveEntry ..
  | cons q l ih =>
    have h : TableWork s (s.redecide q e .handover) := redecide _ _ _ _ (by decide)
    simp only [Machine.handoverWalk]
    split
    · exact h.trans (ih _)
    · exact h.trans (setWaiters ..)

/-- A freeing with its walk. -/
theorem freeEntry (s : State) (e : EntryIx) : TableWork s (s.freeEntry e) := by
  unfold State.freeEntry; split
  · exact refl s
  · exact (setEntry ..).trans (handoverWalk ..)

theorem respMap (s : State) (p : Port) (f : RespEntry → RespEntry) (g : PortIf → PortIf)
    (hf : ∀ r, (f r).key = r.key) (h1 : ∀ x, (g x).state = x.state) (h2 : ∀ x, (g x).profile = x.profile)
    (h3 : ∀ x, (g x).queue = x.queue) (h4 : ∀ x, (g x).fault = x.fault) (h5 : ∀ x, (g x).nextId = x.nextId)
    (h6 : ∀ x, (g x).resp = x.resp.map f) : TableWork s (s.modPort p g) := by
  refine modPort s p g (h1 _) (h2 _) (h3 _) (h4 _) (h5 _) ?_
  rw [h6, List.map_map]
  exact List.map_congr_left fun r _ => hf r

theorem teardownWaiting (s : State) (p : Port) : TableWork s (s.teardownWaiting p) := by
  refine (leaveLists s p).trans (respMap _ p _ _ ?_ (fun _ => rfl) (fun _ => rfl) (fun _ => rfl) (fun _ => rfl) (fun _ => rfl)
    (fun _ => rfl))
  intro r; split <;> rfl

theorem teardownTransfers (s : State) (p : Port) : TableWork s (s.teardownTransfers p) := by
  refine (setHandover s _).trans (respMap _ p _ _ ?_ (fun _ => rfl) (fun _ => rfl) (fun _ => rfl) (fun _ => rfl) (fun _ => rfl)
    (fun _ => rfl))
  intro r; split <;> rfl

theorem teardownOperation (s : State) (p : Port) : TableWork s (s.teardownOperation p) := by
  unfold State.teardownOperation; split
  · exact refl s
  · split
    · exact (setRecord ..).trans (setResp ..)
    · exact refl s

theorem detachRecord (s : State) (p : Port) : TableWork s (s.detachRecord p) := by
  unfold State.detachRecord; split
  · exact refl s
  · exact setRecord ..

theorem teardownEntry (p : Port) (s : State) (e : EntryIx) : TableWork s (s.teardownEntry p e) := by
  unfold State.teardownEntry
  repeat' split
  all_goals first
    | exact refl _
    | exact freeEntry ..
    | exact setWork ..
    | exact (setWork ..).trans (detachRecord ..)

/-- A teardown, all four stages. -/
theorem teardown (s : State) (p : Port) : TableWork s (s.teardown p) :=
  ((((teardownWaiting s p).trans (teardownTransfers ..)).trans (teardownOperation ..)).trans
    (foldl _ (teardownEntry p) allEntries _)).trans (setHeldLines ..)

/-- The teardowns that follow an event. -/
theorem settled (a : After) : TableWork a.state a.settled := foldl _ teardown a.fenced a.state

end TableWork

end Sys2Proof.Machine
end

