-- ==== Sys2Proof/Laws/Event.lean ====
section
/-! SUPPORT. What an event of the interlock table, the operation unit or the memory port leaves alone, fault reports included: one
lemma per operation that a completion, an expiry or a passage to DOWN goes through. -/

namespace Sys2Proof.Machine

/-- `t` comes from `s` by an event that decides nothing and accepts nothing: the region table, the link, the pins, time, the queue
of commands, the response limit and the pointer stay, and of each port its profile, its undecided requests, its serial and the
identities of its response list. -/
structure EventWork (s t : State) : Prop where
  regions : t.regions = s.regions
  link    : t.link = s.link
  shift   : t.shift = s.shift
  wire    : t.wire = s.wire
  pins    : t.pins = s.pins
  clock   : t.clock = s.clock
  choices : t.choices = s.choices
  pending : t.pending = s.pending
  limit   : t.mem.limit = s.mem.limit
  pointer : t.mem.pointer = s.mem.pointer
  profile : ∀ p, (t.port p).profile = (s.port p).profile
  queue   : ∀ p, (t.port p).queue = (s.port p).queue
  nextId  : ∀ p, (t.port p).nextId = (s.port p).nextId
  keys    : ∀ p, (t.port p).resp.map RespEntry.key = (s.port p).resp.map RespEntry.key

namespace EventWork

theorem refl (s : State) : EventWork s s :=
  ⟨rfl, rfl, rfl, rfl, rfl, rfl, rfl, rfl, rfl, rfl, fun _ => rfl, fun _ => rfl, fun _ => rfl, fun _ => rfl⟩

theorem trans {s t u : State} (h : EventWork s t) (k : EventWork t u) : EventWork s u :=
  ⟨k.regions.trans h.regions, k.link.trans h.link, k.shift.trans h.shift, k.wire.trans h.wire, k.pins.trans h.pins, k.clock.trans h.clock, k.choices.trans h.choices,
    k.pending.trans h.pending, k.limit.trans h.limit, k.pointer.trans h.pointer, fun p => (k.profile p).trans (h.profile p),
    fun p => (k.queue p).trans (h.queue p), fun p => (k.nextId p).trans (h.nextId p), fun p => (k.keys p).trans (h.keys p)⟩

theorem of {s t : State} (h : TableWork s t) : EventWork s t :=
  ⟨h.regions, h.link, h.shift, h.wire, h.pins, h.clock, h.choices, h.pending, by rw [h.mem], by rw [h.mem], h.profile, h.queue, h.nextId, h.keys⟩

theorem setWriteBack (s : State) (l : List WriteBackItem) : EventWork s (s.setWriteBack l) := by
  constructor <;> intros <;> rfl

/-- A change of the memory port that keeps its limit and pointer. -/
theorem setMem (s : State) (m : MemPort) (h : m.limit = s.mem.limit) (h' : m.pointer = s.mem.pointer) : EventWork s (s.setMem m) := by
  constructor <;> intros <;> first | exact h | exact h' | rfl

theorem takeReport (x : PortIf) (r : Report) :
    (x.takeReport r).profile = x.profile ∧ (x.takeReport r).queue = x.queue ∧ (x.takeReport r).nextId = x.nextId ∧
      (x.takeReport r).resp = x.resp ∧ (x.takeReport r).held = x.held := by
  unfold PortIf.takeReport; split <;> exact ⟨rfl, rfl, rfl, rfl, rfl⟩

theorem report (s : State) (p : Port) (r : Report) : EventWork s (s.report p r).state := by
  constructor
  iterate 10 rfl
  all_goals
    intro q
    by_cases h : q = p
    · subst h; simp [State.report, takeReport (s.port q) r]
    · simp [State.report, h]

theorem reportOutcome (s : State) (p : Port) (r : Request) (o : OutcomeCode) : EventWork s (s.reportOutcome p r o).state := by
  unfold State.reportOutcome; split
  · exact refl s
  · exact report ..

theorem andThen {s : State} {a : After} {f : State → After} (h : EventWork s a.state) (k : ∀ t, EventWork t (f t).state) :
    EventWork s (a.andThen f).state := h.trans (k _)

theorem settled {s : State} {a : After} (h : EventWork s a.state) : EventWork s a.settled := h.trans (of (TableWork.settled a))

theorem expire (s : State) (e : EntryIx) : EventWork s (s.expire e).state := by
  unfold State.expire; split
  · exact refl s
  · exact (of ((TableWork.changeHeld ..).trans (TableWork.freeEntry ..))).trans (report ..)

theorem releaseOperation (s : State) (e : EntryIx) : EventWork s (s.releaseOperation e).state := by
  unfold State.releaseOperation; split
  · exact of (TableWork.setWork ..)
  · exact (of (TableWork.setWork ..)).trans (expire ..)
  · exact of (TableWork.freeEntry ..)
  · exact of (TableWork.freeEntry ..)
  all_goals exact refl s

theorem finish (s : State) (p : Port) (r : OpRecord) (a : Answer) : EventWork s (s.finish p r a).state :=
  (of ((TableWork.setRecord ..).trans (TableWork.answer ..))).trans (releaseOperation ..)

/-- A transfer handed to its origin. -/
theorem hand (s : State) (i : OutItem) (b : Brought) : EventWork s (s.hand i b).state := by
  unfold State.hand; split
  · exact of (TableWork.answer ..)
  · simp only [State.acquireBack]
    split
    · exact of (TableWork.answer ..)
    · split
      · exact of ((TableWork.answer ..).trans (TableWork.freeEntry ..))
      · split
        · exact of (((TableWork.setWork ..).trans (TableWork.changeHeld ..)).trans (TableWork.answer ..))
        · exact of (((TableWork.leaveHeld ..).trans (TableWork.answer ..)).trans (TableWork.freeEntry ..))
  · simp only [State.releaseBack]
    split
    · exact of (TableWork.answer ..)
    · split
      · exact of ((TableWork.answer ..).trans (TableWork.freeEntry ..))
      · exact of (((TableWork.leaveHeld ..).trans (TableWork.answer ..)).trans (TableWork.freeEntry ..))
  · simp only [State.operationReadBack]
    split
    · exact refl s
    · split
      · simp only [State.operationReadDone]
        split
        · exact (of (TableWork.setRecord ..)).trans (setWriteBack ..)
        · exact finish ..
      · exact finish ..
  · simp only [State.writeBackBack]
    split
    · exact refl s
    · split <;> exact finish ..

theorem failAll {s : State} (l : List OutItem) (a : After) (h : EventWork s a.state) : EventWork s (failAll a l).state := by
  induction l generalizing a with
  | nil => exact h
  | cons i l ih => exact ih _ (andThen h fun t => hand t i .failed)

/-- A passage to DOWN. -/
theorem goDown (s : State) (c : DownCause) : EventWork s (s.goDown c).state :=
  failAll _ _ (by exact setMem _ _ rfl rfl)

theorem moveLimit (s : State) : EventWork s s.moveLimit.state := by
  unfold State.moveLimit; split
  · exact goDown ..
  · exact refl s

theorem completeFront (s : State) (b : Brought) : EventWork s (s.completeFront b).state := by
  unfold State.completeFront; split
  · exact goDown ..
  · rename_i i rest _
    split
    · exact andThen ((setMem s { s.mem with outstanding := rest } rfl rfl).trans (hand _ i b)) moveLimit
    · exact goDown ..

end EventWork

/-! ### The memory port through an event -/

theorem expire_mem (s : State) (e : EntryIx) : (s.expire e).state.mem = s.mem := by
  unfold State.expire; split
  · rfl
  · exact ((TableWork.changeHeld ..).trans (TableWork.freeEntry ..)).mem

theorem releaseOperation_mem (s : State) (e : EntryIx) : (s.releaseOperation e).state.mem = s.mem := by
  unfold State.releaseOperation; split
  · exact (TableWork.setWork ..).mem
  · exact (expire_mem ..).trans (TableWork.setWork ..).mem
  · exact (TableWork.freeEntry ..).mem
  · exact (TableWork.freeEntry ..).mem
  all_goals rfl

theorem finish_mem (s : State) (p : Port) (r : OpRecord) (a : Answer) : (s.finish p r a).state.mem = s.mem :=
  (releaseOperation_mem ..).trans ((TableWork.setRecord ..).trans (TableWork.answer ..)).mem

/-- A transfer handed to its origin leaves the memory port as it is. -/
theorem hand_mem (s : State) (i : OutItem) (b : Brought) : (s.hand i b).state.mem = s.mem := by
  unfold State.hand; split
  · rfl
  · simp only [State.acquireBack]
    split
    · rfl
    · split
      · exact ((TableWork.answer ..).trans (TableWork.freeEntry ..)).mem
      · split
        · exact (((TableWork.setWork ..).trans (TableWork.changeHeld ..)).trans (TableWork.answer ..)).mem
        · exact (((TableWork.leaveHeld ..).trans (TableWork.answer ..)).trans (TableWork.freeEntry ..)).mem
  · simp only [State.releaseBack]
    split
    · rfl
    · split
      · exact ((TableWork.answer ..).trans (TableWork.freeEntry ..)).mem
      · exact (((TableWork.leaveHeld ..).trans (TableWork.answer ..)).trans (TableWork.freeEntry ..)).mem
  · simp only [State.operationReadBack]
    split
    · rfl
    · split
      · simp only [State.operationReadDone]
        split
        · rfl
        · exact finish_mem ..
      · exact finish_mem ..
  · simp only [State.writeBackBack]
    split
    · rfl
    · split <;> exact finish_mem ..

theorem failAll_mem (l : List OutItem) (a : After) : (failAll a l).state.mem = a.state.mem := by
  induction l generalizing a with
  | nil => rfl
  | cons i l ih => exact (ih _).trans (hand_mem ..)

/-- A passage to DOWN leaves the memory port DOWN with nothing outstanding. -/
theorem goDown_mem (s : State) (c : DownCause) :
    (s.goDown c).state.mem = { s.mem with state := .down c, outstanding := [] } := failAll_mem ..

end Sys2Proof.Machine
end

