-- ==== Sys2Proof/Laws/Time.lean ====
section
/-! SUPPORT. What one quantum of time does: it counts timers, moves the clock, and lets at most one bit pass on the maintenance link. One
lemma per part, cited in place of unfolding a tick. -/

namespace Sys2Proof.Machine

/-- `t` comes from `s` by the counting of timers: the works of interlock entries apart, everything stays. -/
structure Counted (s t : State) : Prop where
  ports     : t.ports = s.ports
  regions   : t.regions = s.regions
  heldLines : t.table.heldLines = s.table.heldLines
  handover  : t.table.handover = s.table.handover
  entryWait : t.table.entryWait = s.table.entryWait
  ops       : t.ops = s.ops
  mem       : t.mem = s.mem
  link      : t.link = s.link
  shift     : t.shift = s.shift
  pins      : t.pins = s.pins
  wire      : t.wire = s.wire
  choices   : t.choices = s.choices
  pending   : t.pending = s.pending

namespace Counted

theorem refl (s : State) : Counted s s := ⟨rfl, rfl, rfl, rfl, rfl, rfl, rfl, rfl, rfl, rfl, rfl, rfl, rfl⟩

theorem trans {s t u : State} (h : Counted s t) (k : Counted t u) : Counted s u :=
  ⟨k.ports.trans h.ports, k.regions.trans h.regions, k.heldLines.trans h.heldLines, k.handover.trans h.handover,
    k.entryWait.trans h.entryWait, k.ops.trans h.ops, k.mem.trans h.mem, k.link.trans h.link, k.shift.trans h.shift,
    k.pins.trans h.pins, k.wire.trans h.wire, k.choices.trans h.choices, k.pending.trans h.pending⟩

theorem tickEntry (s : State) (e : EntryIx) : Counted s (s.tickEntry e) := by
  unfold State.tickEntry
  split
  · exact refl s
  · split
    · exact refl s
    · constructor <;> rfl

theorem foldl (l : List EntryIx) (s : State) : Counted s (l.foldl State.tickEntry s) := by
  induction l generalizing s with
  | nil => exact refl s
  | cons e l ih => exact (tickEntry s e).trans (ih _)

theorem withClock {s t : State} (h : Counted s t) (c : Clock) : Counted s { t with clock := c } :=
  ⟨h.ports, h.regions, h.heldLines, h.handover, h.entryWait, h.ops, h.mem, h.link, h.shift, h.pins, h.wire, h.choices, h.pending⟩

/-- The timers counting one quantum. -/
theorem countQuantum (s : State) : Counted s s.countQuantum :=
  (foldl allEntries s).withClock _

end Counted

/-- A cycle of MCLK reaches the bits of the byte position and, at its eighth, the queue of commands, and nothing else. -/
theorem clockBit_eq (s : State) (x : Bool) : s.clockBit x = { s with
    shift := if s.link.counts then s.shift ++ [x] else s.shift
    pending := if s.link.counts ∧ 8 ≤ s.shift.length + 1 then s.pending ++ [s.link.row (byteOfBits (s.shift ++ [x]))]
      else s.pending } := by
  unfold State.clockBit
  by_cases h : s.link.counts = true
  · by_cases h8 : s.shift.length + 1 < 8
    · simp [h, h8, Nat.not_le.mpr h8]
    · simp [h, h8, Nat.not_lt.mp h8]
  · simp [h]

/-- What the BMC does in a quantum reaches the wire, the bits of the byte position and the queue of commands, and nothing else. -/
theorem clockLink_eq (s : State) : s.clockLink = { s with
    shift := s.clockLink.shift
    wire := s.wire.tail
    pending := s.clockLink.pending } := by
  obtain ⟨_, _, _, _, _, _, _, _, wire, _, _, _⟩ := s
  cases wire with
  | nil => rfl
  | cons w later =>
    cases w with
    | none => rfl
    | some x => simp only [State.clockLink, clockBit_eq, List.tail_cons]

namespace State

variable (s : State)

/-! The link's cycle of MCLK leaves every field but three. -/

@[simp] theorem ports_clockLink : s.clockLink.ports = s.ports := by rw [clockLink_eq]
@[simp] theorem regions_clockLink : s.clockLink.regions = s.regions := by rw [clockLink_eq]
@[simp] theorem table_clockLink : s.clockLink.table = s.table := by rw [clockLink_eq]
@[simp] theorem ops_clockLink : s.clockLink.ops = s.ops := by rw [clockLink_eq]
@[simp] theorem mem_clockLink : s.clockLink.mem = s.mem := by rw [clockLink_eq]
@[simp] theorem link_clockLink : s.clockLink.link = s.link := by rw [clockLink_eq]
@[simp] theorem pins_clockLink : s.clockLink.pins = s.pins := by rw [clockLink_eq]
@[simp] theorem clock_clockLink : s.clockLink.clock = s.clock := by rw [clockLink_eq]
@[simp] theorem choices_clockLink : s.clockLink.choices = s.choices := by rw [clockLink_eq]
@[simp] theorem wire_clockLink : s.clockLink.wire = s.wire.tail := by rw [clockLink_eq]

/-! A quantum of time leaves everything but the timers, the clock, the wire, the bits and the queue. -/

theorem tick_eq : s.tick = s.countQuantum.clockLink := rfl

@[simp] theorem ports_tick : s.tick.ports = s.ports := by rw [tick_eq, ports_clockLink, (Counted.countQuantum s).ports]
@[simp] theorem regions_tick : s.tick.regions = s.regions := by rw [tick_eq, regions_clockLink, (Counted.countQuantum s).regions]
@[simp] theorem ops_tick : s.tick.ops = s.ops := by rw [tick_eq, ops_clockLink, (Counted.countQuantum s).ops]
@[simp] theorem mem_tick : s.tick.mem = s.mem := by rw [tick_eq, mem_clockLink, (Counted.countQuantum s).mem]
@[simp] theorem link_tick : s.tick.link = s.link := by rw [tick_eq, link_clockLink, (Counted.countQuantum s).link]
@[simp] theorem pins_tick : s.tick.pins = s.pins := by rw [tick_eq, pins_clockLink, (Counted.countQuantum s).pins]
@[simp] theorem choices_tick : s.tick.choices = s.choices := by rw [tick_eq, choices_clockLink, (Counted.countQuantum s).choices]
@[simp] theorem port_tick (p : Port) : s.tick.port p = s.port p := by rw [port, ports_tick, port]
@[simp] theorem heldLines_tick (p : Port) : s.tick.heldLines p = s.heldLines p := by
  rw [heldLines, tick_eq, table_clockLink, (Counted.countQuantum s).heldLines, heldLines]
@[simp] theorem handover_tick : s.tick.table.handover = s.table.handover := by
  rw [tick_eq, table_clockLink, (Counted.countQuantum s).handover]
@[simp] theorem entryWait_tick : s.tick.table.entryWait = s.table.entryWait := by
  rw [tick_eq, table_clockLink, (Counted.countQuantum s).entryWait]
@[simp] theorem wire_tick : s.tick.wire = s.wire.tail := by rw [tick_eq, wire_clockLink, (Counted.countQuantum s).wire]

end State

end Sys2Proof.Machine
end

