-- ==== Sys2Proof/WellFormed.lean ====
section
/-! DEFINITION. Which commands are well formed. Every operand but one ranges over all the values of its type: an undefined
KIND, WIDTH or OP code is accepted like any other (R1, R193), and every argument byte may be sent (R180). -/

namespace Sys2Proof

/-- BAD_COMMAND carries a byte that is none of the thirteen command codes (R175). -/
def Instr.wellFormed : Instr → Bool
  | .acceptance _ _        => true
  | .delivery _            => true
  | .decision _            => true
  | .grant                 => true
  | .transferAcceptance    => true
  | .completion _ _        => true
  | .holdExpiry _          => true
  | .expiryDue _           => true
  | .responseLimitExpiry   => true
  | .passageToUp _         => true
  | .deviceReset _         => true
  | .prstNAsserted _       => true
  | .prstNDeasserted _     => true
  | .mcsNFalling           => true
  | .mcsNRising            => true
  | .badCommand b          => (Machine.MaintCommand.ofByte b).isNone
  | .readStatus            => true
  | .readPort _            => true
  | .readRegion _          => true
  | .readLock _            => true
  | .readMemoryPort        => true
  | .writeProfile _        => true
  | .pausePort _           => true
  | .resumePort _          => true
  | .ackFault _            => true
  | .writeRegion _         => true
  | .breakLock _           => true
  | .setResponseLimit _    => true
  | .recoverMemory         => true
  | .byteReceived _        => true

end Sys2Proof
end

