-- ==== Sys2Proof/Tests/Slice0.lean ====
section
/-! SUPPORT. Checks on fixed values: the smoke test of WellFormed, values the spec's tables and examples give, and for each statement a
state and operands that meet its hypotheses, clause by clause, at the ends of their ranges. -/

open Sys2Proof Sys2Proof.Machine

namespace Sys2Proof.Tests

/-! ### Small states -/

/-- DEFCFG high and MEM_IDLE asserted: every port ACTIVE, region 0 the whole space, the memory port UP. -/
def base : State := (State.resetWith ⟨Vector.replicate 4 false, false, true, true⟩ [] ⟨0, 0⟩ 0 []).settle

/-- A request by its codes, SUPERVISOR. -/
def ask (kind width addr : Nat) (tag data op data2 : Nat := 0) : Request :=
  ⟨BitVec.ofNat 3 kind, BitVec.ofNat 32 addr, BitVec.ofNat 2 width, .supervisor, BitVec.ofNat 4 tag, BitVec.ofNat 32 data,
    BitVec.ofNat 32 data2, BitVec.ofNat 3 op⟩

/-- One undecided request in the queue of a port. -/
def withHead (s : State) (p : Port) (r : Request) : State := s.modPort p (fun x => { x with queue := [r] })

/-- An interlock entry and the matching list entry of its owner. -/
def withEntry (s : State) (e : EntryIx) (l : Line) (p : Port) (w : EntryWork) (h : HeldState) (waiters : List Port) : State :=
  (s.setEntry e (some ⟨l, p, w, waiters⟩)).setHeldLines p [⟨l, h⟩]

/-- A waiting request of a port, with its entry in the response list. -/
def withWaiter (s : State) (p : Port) (r : Request) (c : Checked) (st : RespState) : State :=
  s.modPort p (fun x => { x with held := some ⟨r, 9, c⟩, resp := [⟨9, r.tag, r.kind, st⟩] })

/-- The outstanding list. -/
def withOutstanding (s : State) (l : List OutItem) : State := s.setMem { s.mem with outstanding := l }

/-- The port's state and fault record. -/
def withState (s : State) (p : Port) (st : PortState) (f : FaultRecord) : State :=
  s.modPort p (fun x => { x with state := st, fault := f })

/-- The memory port DOWN. -/
def down (s : State) : State := s.setMem { s.mem with state := .down .timeout }

/-- The next state, for a command that goes on. -/
def after (c : Instr) (s : State) : State := match exec c s with | .next t => t | .fault _ => s | .refused _ => s

/-- A held-line view of the address line 1 (address $10). -/
def checked (k : Kind) (readthru : Bool := false) : Checked := ⟨k, 0x10, .word, 0, 0, readthru⟩

/-- The first report of a record. -/
def oneFault : FaultRecord := .first ⟨.denied, 0, none⟩

/-- Two distinct entries' lines differ, from a check of the finitely many entries. -/
theorem linesDistinct_of {s : State}
    (h : ∀ e f : EntryIx, (s.entry e).isSome = true → (s.entry e).map Entry.line = (s.entry f).map Entry.line → e = f) :
    s.LinesDistinct := by
  intro e f x y hx hy hl
  exact h e f (by simp [hx]) (by simp [hx, hy, hl])

/-! ### WellFormed -/

/-- A known command byte is no BAD_COMMAND, and an unknown one is. -/
theorem test_wellFormed :
    (Instr.badCommand 0x10).wellFormed = false ∧ (Instr.badCommand 0x34).wellFormed = false ∧
      (Instr.badCommand 0x00).wellFormed = true ∧ (Instr.badCommand 0xFF).wellFormed = true := by decide

/-- No word spells a command (log 17). -/
theorem test_noWordSpellsACommand : decodeTableWord 8 0x10 = none ∧ State.reset.withFetchWord 8 0x10 = State.reset := by decide

/-! ### Values the spec gives -/

/-- R195: the thirteen command bytes name their commands. -/
theorem test_commandBytes :
    ([0x10, 0x11, 0x12, 0x13, 0x14, 0x21, 0x22, 0x23, 0x24, 0x31, 0x32, 0x33, 0x34] : List Byte).map MaintCommand.ofByte =
      [some .readStatus, some .readPort, some .readRegion, some .readLock, some .readMemoryPort, some .writeProfile,
        some .pausePort, some .resumePort, some .ackFault, some .writeRegion, some .breakLock, some .setResponseLimit,
        some .recoverMemory] := by decide

/-- The first seven rows of chapter 6's table of flag values. -/
theorem test_arithmeticFlags :
    FusedOp.add.compute (0x7FFF : BitVec 16) 1 0 = ⟨0x8000, true, ⟨true, false, true, false⟩⟩ ∧
    FusedOp.add.compute (0xFFFF : BitVec 16) 1 0 = ⟨0, true, ⟨false, true, false, true⟩⟩ ∧
    FusedOp.add.compute (0x80 : BitVec 8) 0x80 0 = ⟨0, true, ⟨false, true, true, true⟩⟩ ∧
    FusedOp.sub.compute (3 : BitVec 16) 5 0 = ⟨0xFFFE, true, ⟨true, false, false, true⟩⟩ ∧
    FusedOp.sub.compute (0x8000 : BitVec 16) 1 0 = ⟨0x7FFF, true, ⟨false, false, true, false⟩⟩ ∧
    FusedOp.sub.compute (0 : BitVec 32) 1 0 = ⟨0xFFFFFFFF, true, ⟨true, false, false, true⟩⟩ := by decide

/-- The other rows of the table. -/
theorem test_bitAndSwapFlags :
    FusedOp.setBits.compute (1 : BitVec 32) 0x80000000 0 = ⟨0x80000001, true, ⟨true, false, false, false⟩⟩ ∧
    FusedOp.clearBits.compute (0xF0 : BitVec 16) 0x30 0 = ⟨0xC0, true, ⟨false, false, false, false⟩⟩ ∧
    FusedOp.flipBits.compute (0x0F : BitVec 8) 0xFF 0 = ⟨0xF0, true, ⟨true, false, false, false⟩⟩ ∧
    FusedOp.swap.compute (0x8001 : BitVec 16) 0x1234 0 = ⟨0x1234, true, ⟨true, false, false, false⟩⟩ ∧
    FusedOp.cswap.compute (0x42 : BitVec 16) 0x42 0x99 = ⟨0x99, true, ⟨false, true, false, false⟩⟩ ∧
    (FusedOp.cswap.compute (0x42 : BitVec 16) 0x43 0x99).writes = false ∧
    (FusedOp.cswap.compute (0x42 : BitVec 16) 0x43 0x99).flags = ⟨true, false, false, true⟩ ∧
    (FusedOp.cswap.compute (0x80000000 : BitVec 32) 0x7FFFFFFF 0).flags = ⟨false, false, true, false⟩ := by decide

/-- The region table and profiles of chapter 2's example. -/
def examplePart : State :=
  let part := base.modPort 1 (fun x => { x with profile := { x.profile with capUser := true } })
  let part := part.modPort 3 (fun x => { x with profile := { x.profile with fusedAllowed := false } })
  let table := (((Vector.replicate 16 Region.blank).set 2 ⟨true, 0, 0xFF, 0x3, true, true, true, false, false, false⟩).set
    3 ⟨true, 0x100, 0x10F, 0xF, true, true, true, true, true, true⟩).set 5 ⟨true, 0x100, 0x1FF, 0x5, true, true, false, false, false, false⟩
  { part with regions := table }

/-- Its rows: the refusals. -/
theorem test_headCheckRefusals :
    examplePart.headCheck 1 (ask 1 1 0x8002) = .refused .denied ∧
    examplePart.headCheck 2 { ask 0 0 0x10 with priv := .user } = .refused .noRegion ∧
    examplePart.headCheck 3 (ask 2 2 0x10042) = .refused .misaligned ∧
    examplePart.headCheck 3 { ask 5 1 0x10042 with priv := .user } = .refused .denied ∧
    examplePart.headCheck 0 (ask 2 2 0x11000) = .refused .denied ∧
    examplePart.headCheck 0 { ask 0 2 0x11000 with priv := .user } = .refused .denied ∧
    examplePart.headCheck 1 { ask 0 2 0xFFFFFFFC with priv := .user } = .refused .noRegion ∧
    examplePart.headCheck 0 (ask 6 2 0x8001) = .refused .badRequest := by decide

/-- Its rows: the requests handed to the interlock stage. -/
theorem test_headCheckPasses :
    examplePart.headCheck 0 (ask 0 2 0x8000) = .passed ⟨.read, 0x8000, .word, 0, 0, false⟩ ∧
    examplePart.headCheck 1 (ask 2 2 0x10044) = .passed ⟨.lockRead, 0x10044, .word, 0, 0, true⟩ ∧
    examplePart.headCheck 2 { ask 4 0 0x11003 with priv := .user } = .passed ⟨.unlock, 0x11003, .byte, 0, 0, false⟩ ∧
    lineOf 0x10044 = 0x1004 ∧ lineOf 0x11003 = 0x1100 := by decide

/-- R193: the response channel's codes. -/
theorem test_responseCodes :
    responseBits (7, ⟨.memDown, 5, ⟨true, false, false, true⟩⟩) = (7, 12, 5, 0b1001) ∧
      FaultKind.holdExpired.code = 13 ∧ OutcomeCode.notHeld.code = 8 ∧
      transferBits ⟨.write, 0x10, .half, 3⟩ = (1, 0x10, 1, 3) := by decide

/-- R194: the completion channel's status bit, 0 OK and 1 DATA-ERROR. -/
theorem test_completionCodes :
    completionCode .ok = 0 ∧ completionCode .dataError = 1 ∧ completionOfBits 0 5 = .completion .ok 5 ∧
      completionOfBits 1 5 = .completion .dataError 5 := by decide

/-- R80: a timer just loaded with 100 µs reads 100, and it reads 1 in the last microsecond. -/
theorem test_holdRemainingIsRoundedUp :
    ({ base with clock := ⟨0, 3⟩ } : State).wholeMicroseconds 400 = 100 ∧
      ({ base with clock := ⟨0, 3⟩ } : State).wholeMicroseconds 1 = 1 ∧
      ({ base with clock := ⟨0, 3⟩ } : State).wholeMicroseconds 5 = 2 := by decide

/-- R189, R197: a region written is read back, the unassigned bits as 0. -/
theorem test_regionReadBack :
    (regionFields [3, 0xFF, 0xFF, 0, 0, 1, 0, 1, 0]).bytes = [0xBF, 0x0F, 0, 0, 1, 0, 1, 0] := by decide

/-- R184, R197: a FUSING UNDER-LOCK entry with expiry-due, of a PAUSED owner. -/
theorem test_lockBytes :
    (withState (withEntry base 5 0x500 2 (.fusingUnderLock 300 true) .held [0, 3]) 2 .paused .empty).lockBytes 5 =
      [0x6C, 2, 0, 0, 5, 0, 1, 44, 2, 0, 3, 0] := by decide

/-- R182, R197: a port with a fault record and a broken line. -/
theorem test_portBytes :
    ((base.modPort 1 (fun x => { x with
        fault := .two ⟨.denied, 0x8000, some ⟨2, 1, .user⟩⟩ .holdExpired
        state := .fenced
        queue := [ask 0 2 0]
        resp := [⟨0, 5, 2, .atMemory⟩, ⟨1, 6, 1, .complete (Answer.plain .fenced)⟩] })).setHeldLines 1
          [⟨0x10, .broken .maintenance⟩]).portBytes 1 =
      [3, 0xC2, 3, 0xE8, 1, 2, 0x27, 0, 0x82, 5, 13, 0x92, 0, 0, 0x80, 0, 1, 0x14, 0, 0, 0, 0x10, 0, 0, 0, 0, 0] := by decide

/-- R181, R185, R197: the part right after a device reset with DEFCFG low is quiet, SETTLING, with a limit of 64 and the pointer P3. -/
theorem test_statusAfterReset :
    State.reset.statusBytes = [0, 0x80, 0, 0, 0, 0, 0] ∧ State.reset.memoryBytes = [0xC0, 64, 0, 0, 0, 0, 0] ∧
      State.reset.offered 0 = none ∧ State.reset.offeredTransfer = none ∧ State.reset.alert = false := by decide

/-- Chapter 3's example: the UNLOCK of E4 releases P2's WRITE and passes the entry to P1's FUSED, with P3 kept. -/
def mixedWaiters : State :=
  let part := withEntry base 4 0x300 0 (.held 50) .held [2, 1, 3]
  let part := withWaiter part 2 (ask 1 2 0x3000) ⟨.write, 0x3000, .word, 7, 0, false⟩ .parked
  let part := withWaiter part 1 (ask 5 2 0x3004) ⟨.fused .add, 0x3004, .word, 1, 0, false⟩ .parked
  withWaiter part 3 (ask 2 2 0x3008) ⟨.lockRead, 0x3008, .word, 0, 0, false⟩ .parked

theorem test_walkOverMixedWaiters :
    let t := after (.decision 0) (withHead mixedWaiters 0 (ask 4 2 0x3000))
    t.entry 4 = some ⟨0x300, 1, .fusingFresh, [3]⟩ ∧ t.heldLines 0 = [] ∧ t.heldLines 1 = [] ∧
      t.table.handover = [⟨2, .request 9 .plain, ⟨.write, 0x3000, .word, 7⟩⟩, ⟨1, .operationRead, ⟨.read, 0x3004, .word, 0⟩⟩] ∧
      (t.port 0).resp = [⟨0, 0, 4, .complete (Answer.plain .done)⟩] ∧ (t.port 2).resp = [⟨9, 0, 1, .handedOver⟩] ∧
      (t.port 1).resp = [⟨9, 0, 5, .inOperation⟩] ∧ (t.port 3).resp = [⟨9, 0, 2, .parked⟩] := by decide

/-- The same with the memory port DOWN: every waiter is answered MEM-DOWN and E4 is FREE. -/
theorem test_walkWithTheMemoryPortDown :
    let t := after (.decision 0) (withHead (down mixedWaiters) 0 (ask 4 2 0x3000))
    t.entry 4 = none ∧ t.table.handover = [] ∧ (t.port 1).resp = [⟨9, 0, 5, .complete (Answer.plain .memDown)⟩] ∧
      (t.port 2).resp = [⟨9, 0, 1, .complete (Answer.plain .memDown)⟩] ∧
      (t.port 3).resp = [⟨9, 0, 2, .complete (Answer.plain .memDown)⟩] := by decide

/-! ### What meets the statements' hypotheses -/

/-- A port with one response-list entry. -/
def withResponse (st : RespState) : State := base.modPort 0 (fun x => { x with resp := [⟨0, 3, 0, st⟩] })

theorem test_meets_StepRunsTheFrontCommand :
    ({ base with pending := [.grant, .mcsNFalling] } : State).pending = .grant :: [.mcsNFalling] := by decide

theorem test_meets_StepOnAnEmptyQueueTakesADueEventOrTime :
    (State.reset.pending = [] ∧ State.reset.due = []) ∧
    ((withHead base 0 (ask 0 2 0)).pending = [] ∧ (withHead base 0 (ask 0 2 0)).due = [.decision 0]) ∧
    2 ≤ (withHead (withHead base 0 (ask 0 2 0)) 3 (ask 0 2 0)).due.length ∧
    (withEntry base 7 1 0 (.held 1) .held []).entry 7 = some ⟨1, 0, .held 1, []⟩ ∧
    (base.wire.head? = none ∧ base.entry 7 = none) := by decide

/-- Each kind of event of the part is due where its conditions hold. -/
theorem test_dueEvents :
    (withResponse (.awaitingGrant .plain ⟨.read, 0, .word, 0⟩)).due = [.grant] ∧
    (State.reset.setPins { State.reset.pins with memIdle := true }).due = [.passageToUp true] ∧
    (withOutstanding { base with clock := ⟨64, 0⟩ } [⟨⟨.read, 0, .word, 0⟩, 0, true, .request 0 4 .plain⟩]).due =
      [.responseLimitExpiry] ∧
    (withEntry base 7 1 0 (.held 0) .held []).due = [.holdExpiry 7] ∧
    (withEntry base 7 1 0 (.fusingUnderLock 0 false) .held []).due = [.expiryDue 7] ∧
    (withState (withEntry base 7 1 0 (.held 0) .held []) 0 .paused .empty).due = [] := by decide

theorem test_meets_AcceptanceJoinsTheQueue :
    ((base.port 0).state ≠ .offline ∧ (base.port 0).inbound < 8) ∧
    ((base.modPort 3 (fun x => { x with queue := List.replicate 7 (ask 0 2 0) })).port 3).inbound < 8 ∧
    (State.reset.port 3).state = .offline ∧
    8 ≤ ((base.modPort 3 (fun x => { x with queue := List.replicate 8 (ask 0 2 0) })).port 3).inbound := by decide

theorem test_meets_DeliveryTakesTheCompleteFront :
    (((withResponse (.complete (Answer.plain .done))).port 0).state ≠ .offline ∧
      ((withResponse (.complete (Answer.plain .done))).port 0).resp = ⟨0, 3, 0, .complete (Answer.plain .done)⟩ :: []) ∧
    ((withResponse .atMemory).port 0).resp = ⟨0, 3, 0, .atMemory⟩ :: [] ∧
    ∀ a, (⟨0, 3, 0, .atMemory⟩ : RespEntry).state ≠ .complete a :=
  ⟨by decide, by decide, fun a h => by cases h⟩

theorem test_meets_NothingIsDecidedOutsideItsConditions :
    (withHead base 0 (ask 0 2 0)).decides 0 = true ∧ base.decides 0 = false ∧
    ((withState base 0 .paused .empty).port 0).state = .paused ∧ (State.reset.port 0).state = .offline ∧
    (base.port 0).queue = [] ∧ 4 ≤ ((base.modPort 0 (fun x => { x with
      resp := List.replicate 4 ⟨0, 0, 0, .atMemory⟩ })).port 0).resp.length ∧
    ((base.setRecord 0 (some ⟨.add, .word, 0, 1, 0, .reading .candidate, .fresh, 0, false, 0⟩)).record 0).isSome = true ∧
    (∃ r ∈ ((withResponse .parked).port 0).resp, r.state = .parked ∨ r.state = .entryWait ∨ r.state = .handedOver) := by decide

theorem test_meets_FencedHeadIsAnsweredFenced :
    let s := withHead (withState base 0 .fenced (.two ⟨.denied, 0, none⟩ .limit)) 0 (ask 7 3 1)
    s.decides 0 = true ∧ (s.port 0).state = .fenced ∧ (s.port 0).queue = ask 7 3 1 :: [] := by decide

theorem test_meets_CodesAndAlignmentAreTested :
    ((withHead base 0 (ask 6 0 0)).Decides 0 (ask 6 0 0) [] ∧ ((withHead base 0 (ask 6 0 0)).port 0).fault = .empty) ∧
    (withHead base 0 (ask 0 3 0)).Decides 0 (ask 0 3 0) [] ∧
    (withHead base 0 (ask 5 0 0 0 0 7)).Decides 0 (ask 5 0 0 0 0 7) [] ∧
    (withHead base 0 (ask 4 0 1 0 0 7)).Decides 0 (ask 4 0 1 0 0 7) [] ∧
    (withHead base 0 (ask 4 1 1)).Decides 0 (ask 4 1 1) [] ∧
    (withHead base 0 (ask 5 2 3 0 0 6)).Decides 0 (ask 5 2 3 0 0 6) [] :=
  ⟨⟨⟨by decide, by decide, by decide⟩, by decide⟩, ⟨by decide, by decide, by decide⟩, ⟨by decide, by decide, by decide⟩,
    ⟨by decide, by decide, by decide⟩, ⟨by decide, by decide, by decide⟩, by decide, by decide, by decide⟩

theorem test_meets_RegionAndRightsAreChecked :
    ((withHead examplePart 2 (ask 0 0 0x10)).Decides 2 (ask 0 0 0x10) [] ∧ Kind.ofCodes 0 0 = some .read ∧
      Width.ofCode 0 = some .byte ∧ examplePart.matchRegion 2 (blockOf 0x10) = none) ∧
    ((withHead examplePart 3 (ask 5 1 0x10042)).Decides 3 (ask 5 1 0x10042) [] ∧
      (examplePart.matchRegion 3 (blockOf 0x10042)).any (fun g => !g.permits (examplePart.port 3).profile (.fused .add) .supervisor)) ∧
    ((withHead examplePart 0 (ask 0 2 0x8000)).Decides 0 (ask 0 2 0x8000) [] ∧
      (examplePart.matchRegion 0 (blockOf 0x8000)).any (fun g => g.permits (examplePart.port 0).profile .read .supervisor)) :=
  ⟨⟨⟨by decide, by decide, by decide⟩, by decide, by decide, by decide⟩, ⟨⟨by decide, by decide, by decide⟩, by decide⟩,
    ⟨by decide, by decide, by decide⟩, by decide⟩

theorem test_meets_SecondFaultFencesThePort :
    (let s := withHead (withState base 0 .active oneFault) 0 (ask 6 0 0);
      s.Decides 0 (ask 6 0 0) [] ∧ (s.port 0).fault = .first ⟨.denied, 0, none⟩ ∧ s.headCheck 0 (ask 6 0 0) = .refused .badRequest) ∧
    (let s := withHead (withState base 0 .active oneFault) 0 (ask 4 2 0x10);
      s.Decides 0 (ask 4 2 0x10) [] ∧ s.headCheck 0 (ask 4 2 0x10) = .passed (checked .unlock) ∧
        s.stage 0 (checked .unlock) s.entryToTake = .refuse .notHeld) :=
  ⟨⟨⟨by decide, by decide, by decide⟩, by decide, by decide⟩, ⟨by decide, by decide, by decide⟩, by decide, by decide⟩

/-- P0's head, on a part where another port holds the line, or none does. -/
theorem test_meets_PlainRequestProceedsToMemory :
    (let s := withHead base 0 (ask 0 2 0x10);
      s.Passes 0 (ask 0 2 0x10) [] (checked .read) ∧ s.own 0 1 = none ∧ s.lineEntry 1 = none ∧ s.memDown = false) ∧
    (let s := withHead (down base) 0 (ask 1 2 0x10);
      s.Passes 0 (ask 1 2 0x10) [] (checked .write) ∧ s.memDown = true) ∧
    (let s := withHead (withEntry base 0 1 0 (.held 9) .held []) 0 (ask 1 2 0x10);
      s.Passes 0 (ask 1 2 0x10) [] (checked .write) ∧ s.own 0 1 = some .held) ∧
    (withEntry base 0 1 0 (.acquiring false) .acquiring []).own 0 1 = some .acquiring ∧
    (withEntry base 0 1 0 (.releasing false) .releasing []).own 0 1 = some .releasing ∧
    (let r := ask 0 2 0x10000
      let s := withHead examplePart 2 r
      s.Passes 2 r [] ⟨.read, 0x10000, .word, 0, 0, true⟩) :=
  ⟨⟨⟨⟨by decide, by decide, by decide⟩, by decide⟩, by decide, by decide, by decide⟩,
    ⟨⟨⟨by decide, by decide, by decide⟩, by decide⟩, by decide⟩, ⟨⟨⟨by decide, by decide, by decide⟩, by decide⟩, by decide⟩,
    by decide, by decide, ⟨by decide, by decide, by decide⟩, by decide⟩

theorem test_meets_LockReadTakesTheLowestFreeEntry :
    (let s := withHead base 0 (ask 2 2 0x10);
      s.Passes 0 (ask 2 2 0x10) [] (checked .lockRead) ∧ s.own 0 1 = none ∧ (s.heldLines 0).length < (s.port 0).profile.lockLimit.toNat ∧
        s.lineEntry 1 = none ∧ s.Lowest 0 ∧ s.memDown = false) ∧
    (let s := withHead (down (withEntry base 0 5 0 (.held 9) .held [])) 0 (ask 2 2 0x10);
      s.Passes 0 (ask 2 2 0x10) [] (checked .lockRead) ∧ (s.heldLines 0).length < (s.port 0).profile.lockLimit.toNat ∧
        s.Lowest 1 ∧ s.memDown = true) :=
  ⟨⟨⟨⟨by decide, by decide, by decide⟩, by decide⟩, by decide, by decide, by decide, ⟨by decide, by decide, by decide⟩, by decide⟩,
    ⟨⟨by decide, by decide, by decide⟩, by decide⟩, by decide, ⟨by decide, by decide, by decide⟩, by decide⟩

theorem test_meets_MisuseOfLocksIsAFault :
    (let s := withHead (withEntry base 0 1 0 (.held 9) .held []) 0 (ask 2 2 0x10);
      s.Passes 0 (ask 2 2 0x10) [] (checked .lockRead) ∧ s.own 0 1 ≠ none ∧ (s.port 0).fault = .empty) ∧
    (let s := withHead (base.setHeldLines 0 [⟨5, .held⟩, ⟨6, .broken .timeout⟩]) 0 (ask 2 2 0x10);
      s.Passes 0 (ask 2 2 0x10) [] (checked .lockRead) ∧ s.own 0 1 = none ∧
        (s.port 0).profile.lockLimit.toNat ≤ (s.heldLines 0).length) ∧
    (let s := withHead base 0 (ask 3 2 0x10);
      s.Passes 0 (ask 3 2 0x10) [] (checked .releaseWrite) ∧ s.own 0 1 = none) ∧
    (let s := withHead (withEntry base 0 1 0 (.acquiring false) .acquiring []) 0 (ask 5 2 0x10);
      s.Passes 0 (ask 5 2 0x10) [] (checked (.fused .add)) ∧ s.own 0 1 = some .acquiring) :=
  ⟨⟨⟨⟨by decide, by decide, by decide⟩, by decide⟩, by decide, by decide⟩,
    ⟨⟨⟨by decide, by decide, by decide⟩, by decide⟩, by decide, by decide⟩,
    ⟨⟨⟨by decide, by decide, by decide⟩, by decide⟩, by decide⟩, ⟨⟨by decide, by decide, by decide⟩, by decide⟩, by decide⟩

/-- Every entry is taken, for lines other than 1. -/
def exhausted : State :=
  { base with table := { base.table with entries := Vector.ofFn (fun e : Fin 8 =>
      some ⟨BitVec.ofNat 28 (0x40 + e.val), 3, .held 9, []⟩) } }

theorem test_meets_LockerWithoutAnEntryWaits :
    (let s := withHead exhausted 0 (ask 2 2 0x10);
      s.Passes 0 (ask 2 2 0x10) [] (checked .lockRead) ∧ (s.heldLines 0).length < (s.port 0).profile.lockLimit.toNat ∧
        s.own 0 1 = none ∧ s.lineEntry 1 = none ∧ ∀ e, s.entry e ≠ none) ∧
    (let s := withHead (base.setEntryWait [1]) 0 (ask 5 2 0x10);
      s.Passes 0 (ask 5 2 0x10) [] (checked (.fused .add)) ∧ s.lineEntry 1 = none ∧ s.table.entryWait ≠ []) :=
  ⟨⟨⟨⟨by decide, by decide, by decide⟩, by decide⟩, by decide, by decide, by decide, by decide⟩,
    ⟨⟨by decide, by decide, by decide⟩, by decide⟩, by decide, by decide⟩

/-- P1 holds line 1; in the second, P1 is parked on the entry of P0's line 5. -/
def heldByOther : State := withEntry base 0 1 1 (.held 9) .held []
def closingChain : State :=
  withWaiter (withEntry heldByOther 3 5 0 (.held 9) .held [1]) 1 (ask 1 2 0x50) ⟨.write, 0x50, .word, 0, 0, false⟩ .parked

theorem test_meets_HeldLineParksOrRefusesTheCycle :
    (let s := withHead heldByOther 0 (ask 1 2 0x10);
      s.Passes 0 (ask 1 2 0x10) [] (checked .write) ∧ s.WouldPark 0 (checked .write) ∧ s.own 0 1 = none ∧ s.lineEntry 1 = some 0 ∧
        s.entry 0 = some ⟨1, 1, .held 9, []⟩ ∧ ¬ s.ComesBackTo 0 0) ∧
    (let s := withHead closingChain 0 (ask 2 2 0x10);
      s.Passes 0 (ask 2 2 0x10) [] (checked .lockRead) ∧ s.WouldPark 0 (checked .lockRead) ∧ s.lineEntry 1 = some 0 ∧
        s.ComesBackTo 0 0) ∧
    (let s := withHead (heldByOther.setHeldLines 0 [⟨1, .broken .timeout⟩]) 0 (ask 0 2 0x10);
      s.Passes 0 (ask 0 2 0x10) [] (checked .read) ∧ s.WouldPark 0 (checked .read) ∧ s.own 0 1 = some (.broken .timeout)) := by
  refine ⟨⟨⟨⟨by decide, by decide, by decide⟩, by decide⟩, .inr (.inl rfl), by decide, by decide, by decide, ?_⟩,
    ⟨⟨⟨by decide, by decide, by decide⟩, by decide⟩, .inr (.inr (.inl ⟨rfl, by decide⟩)), by decide, ?_⟩,
    ⟨⟨by decide, by decide, by decide⟩, by decide⟩, .inl ⟨rfl, rfl⟩, by decide⟩
  · intro h
    have hx : (withHead heldByOther 0 (ask 1 2 0x10)).entry 0 = some ⟨1, 1, .held 9, []⟩ := by decide
    cases h with
    | owner he hp => rw [hx] at he; cases he; cases hp
    | parked he hw hd hq ho hc =>
      rw [hx] at he; cases he
      exact absurd hq (by decide)
  · exact .parked (x := ⟨1, 1, .held 9, []⟩) (e' := 3) (by decide) (by decide) (by decide) (by decide) (by decide)
      (.owner (x := ⟨5, 0, .held 9, [1]⟩) (by decide) rfl)

theorem test_meets_HeldLineIsReleasedOrUnlocked :
    (let s := withHead (withEntry base 7 1 0 (.held 9) .held [2]) 0 (ask 3 2 0x10);
      s.Passes 0 (ask 3 2 0x10) [] (checked .releaseWrite) ∧ s.own 0 1 = some .held ∧ s.heldEntry 0 1 = some 7 ∧
        s.entry 7 = some ⟨1, 0, .held 9, [2]⟩ ∧ s.memDown = false ∧ (down s).memDown = true) ∧
    (let s := withHead (withEntry base 7 1 0 (.held 9) .held [2]) 0 (ask 4 2 0x10);
      s.Passes 0 (ask 4 2 0x10) [] (checked .unlock)) :=
  ⟨⟨⟨⟨by decide, by decide, by decide⟩, by decide⟩, by decide, by decide, by decide, by decide, by decide⟩,
    ⟨by decide, by decide, by decide⟩, by decide⟩

theorem test_meets_BrokenLineAnswersBroken :
    (let s := withHead (base.setHeldLines 0 [⟨1, .broken .timeout⟩]) 0 (ask 5 2 0x10);
      s.Passes 0 (ask 5 2 0x10) [] (checked (.fused .add)) ∧ s.own 0 1 = some (.broken .timeout)) ∧
    (let s := withHead (base.setHeldLines 0 [⟨1, .broken .maintenance⟩]) 0 (ask 3 2 0x10);
      s.Passes 0 (ask 3 2 0x10) [] (checked .releaseWrite) ∧ s.own 0 1 = some (.broken .maintenance)) :=
  ⟨⟨⟨⟨by decide, by decide, by decide⟩, by decide⟩, by decide⟩, ⟨⟨by decide, by decide, by decide⟩, by decide⟩, by decide⟩

theorem test_meets_FusedStartsAnOperation :
    (let s := withHead base 0 (ask 5 2 0x10);
      s.Passes 0 (ask 5 2 0x10) [] (checked (.fused .add)) ∧ s.own 0 1 = none ∧ s.lineEntry 1 = none ∧ s.Lowest 0 ∧
        s.memDown = false ∧ (down s).memDown = true) ∧
    (let s := withHead (withEntry base 7 1 0 (.held 9) .held []) 0 (ask 5 2 0x10);
      s.Passes 0 (ask 5 2 0x10) [] (checked (.fused .add)) ∧ s.own 0 1 = some .held ∧ s.heldEntry 0 1 = some 7) :=
  ⟨⟨⟨⟨by decide, by decide, by decide⟩, by decide⟩, by decide, by decide, ⟨by decide, by decide, by decide⟩, by decide, by decide⟩,
    ⟨⟨by decide, by decide, by decide⟩, by decide⟩, by decide, by decide⟩

/-- P1 waits on E2, line 1, with a request of kind `k`. -/
def waitedFor (k : Kind) (w : List Port) : State :=
  withWaiter (withEntry base 2 1 0 (.held 9) .held w) 1 (ask 1 2 0x10) (checked k) .parked

theorem test_meets_FreedEntryIsHandedOver :
    ((waitedFor .write []).entry 2 = some ⟨1, 0, .held 9, []⟩ ∧ (waitedFor .write []).LinesDistinct ∧
      (waitedFor .write []).table.entryWait = []) ∧
    (let s := waitedFor .lockRead [1, 3];
      s.entry 2 = some ⟨1, 0, .held 9, 1 :: [3]⟩ ∧ s.LinesDistinct ∧ (s.port 1).held = some ⟨ask 1 2 0x10, 9, checked .lockRead⟩ ∧
        (checked .lockRead).line = 1 ∧ s.own 1 1 = none ∧ (s.heldLines 1).length < (s.port 1).profile.lockLimit.toNat ∧
        s.memDown = false ∧ (down s).memDown = true) ∧
    ((waitedFor (.fused .add) [1]).port 1).held = some ⟨ask 1 2 0x10, 9, checked (.fused .add)⟩ ∧
    ((waitedFor .read [1]).port 1).held = some ⟨ask 1 2 0x10, 9, checked .read⟩ ∧
    (let s := (waitedFor .read [1]).setHeldLines 1 [⟨1, .broken .timeout⟩];
      s.own 1 1 = some (.broken .timeout) ∧ (checked .read).kind = .read ∧ (s.setEntry 2 none).entry 2 = none) :=
  ⟨⟨by decide, linesDistinct_of (by decide), by decide⟩,
    ⟨by decide, linesDistinct_of (by decide), by decide, by decide, by decide, by decide, by decide, by decide⟩, by decide,
    by decide, by decide⟩

/-- P1 waits for an entry, P3 behind it, with a LOCK-READ of line 1, and P0 holds E2 for line 5. -/
def entryWanted (s : State) : State :=
  (withWaiter (withEntry s 2 5 0 (.held 9) .held []) 1 (ask 2 2 0x10) (checked .lockRead) .entryWait).setEntryWait [1, 3]

/-- P3 holds line 1; in the second, P3 is parked on the entry of P1's line 6. -/
def wantedIsHeld : State := entryWanted (withEntry base 4 1 3 (.held 9) .held [])
def wantedClosesChain : State :=
  withWaiter ((withEntry wantedIsHeld 6 6 1 (.held 9) .held [3]).setEntryWait [1]) 3 (ask 1 2 0x60) ⟨.write, 0x60, .word, 0, 0, false⟩
    .parked

theorem test_meets_FreedEntryGoesToTheEntryWaitList :
    (let s := entryWanted base;
      s.entry 2 = some ⟨5, 0, .held 9, []⟩ ∧ s.table.entryWait = 1 :: [3] ∧
      (s.port 1).held = some ⟨ask 2 2 0x10, 9, checked .lockRead⟩ ∧ s.own 1 1 = none ∧
      (∀ f y, s.entry f = some y → f ≠ 2 → y.line ≠ 1) ∧ s.memDown = false ∧ (down s).memDown = true ∧
      (s.heldLines 1).length < (s.port 1).profile.lockLimit.toNat) ∧
    (let s := wantedIsHeld;
      s.entry 2 = some ⟨5, 0, .held 9, []⟩ ∧ s.table.entryWait = 1 :: [3] ∧ s.own 1 1 = none ∧ s.LinesDistinct ∧
      s.entry 4 = some ⟨1, 3, .held 9, []⟩ ∧ ¬ ((s.setEntry 2 none).setEntryWait [3]).ComesBackTo 1 4) ∧
    (let s := wantedClosesChain;
      s.entry 4 = some ⟨1, 3, .held 9, []⟩ ∧ s.table.entryWait = 1 :: [] ∧ s.own 1 1 = none ∧ s.LinesDistinct ∧
      (s.heldLines 1).length < (s.port 1).profile.lockLimit.toNat ∧ ((s.setEntry 2 none).setEntryWait []).ComesBackTo 1 4) := by
  refine ⟨⟨by decide, by decide, by decide, by decide, ?_, by decide, by decide, by decide⟩,
    ⟨by decide, by decide, by decide, linesDistinct_of (by decide), by decide, ?_⟩,
    by decide, by decide, by decide, linesDistinct_of (by decide), by decide, ?_⟩
  · intro f y hf hn
    have h : ∀ f : EntryIx, f ≠ 2 → (entryWanted base).entry f = none := by decide
    rw [h f hn] at hf
    cases hf
  · intro h
    have hx : ((wantedIsHeld.setEntry 2 none).setEntryWait [3]).entry 4 = some ⟨1, 3, .held 9, []⟩ := by decide
    cases h with
    | owner he hp => rw [hx] at he; cases he; cases hp
    | parked he hw hd hq ho hc =>
      rw [hx] at he; cases he
      exact absurd hq (by decide)
  · exact .parked (x := ⟨1, 3, .held 9, []⟩) (e' := 6) (by decide) (by decide) (by decide) (by decide) (by decide)
      (.owner (x := ⟨6, 1, .held 9, [3]⟩) (by decide) rfl)

/-- R76: a line held by another parks the first port, and the entry goes on to the next. -/
theorem test_freedEntryGoesOn :
    (wantedIsHeld.freeEntry 2).entry 4 = some ⟨1, 3, .held 9, [1]⟩ ∧
      ((wantedIsHeld.freeEntry 2).port 1).resp = [⟨9, 0, 2, .parked⟩] ∧
      ((wantedClosesChain.freeEntry 2).port 1).resp = [⟨9, 0, 2, .complete (Answer.plain .deadlock)⟩] ∧
      (wantedClosesChain.freeEntry 2).entry 2 = none := by decide

theorem test_meets_HoldTimerReachesZero :
    (let s := withEntry base 0 1 0 (.held 0) .held [];
      s.entry 0 = some ⟨1, 0, .held 0, []⟩ ∧ (s.port 0).state = .active ∧ (s.port 0).fault = .empty) ∧
    (let s := withState (withEntry base 7 1 3 (.held 0) .held []) 3 .active oneFault;
      s.entry 7 = some ⟨1, 3, .held 0, []⟩ ∧ (s.port 3).state = .active ∧ (s.port 3).fault = .first ⟨.denied, 0, none⟩) ∧
    (withEntry base 7 1 3 (.fusingUnderLock 0 false) .held []).entry 7 = some ⟨1, 3, .fusingUnderLock 0 false, []⟩ ∧
    (let s := withState (withEntry base 7 1 3 (.held 0) .held []) 3 .paused .empty;
      s.entry 7 = some ⟨1, 3, .held 0, []⟩ ∧ (s.port 3).state = .paused) ∧
    (withEntry base 7 1 3 (.held 1) .held []).entry 7 = some ⟨1, 3, .held (0 + 1), []⟩ ∧
    (withEntry base 7 1 3 (.fusingUnderLock 1 false) .held []).entry 7 = some ⟨1, 3, .fusingUnderLock (0 + 1) false, []⟩ ∧
    base.entry 7 = none := by decide

/-- A record of P2, by its phase. -/
def record (ph : OpPhase) : OpRecord := ⟨.cswap, .word, 0x10, 5, 6, ph, .fresh, 2, false, 9⟩

theorem test_meets_GrantServesTheListsFirst :
    (base.grantOpen = true ∧ base.grantDue = false) ∧ (down base).grantOpen = false ∧
    (withResponse (.awaitingGrant .plain ⟨.read, 0, .word, 0⟩)).grantDue = true ∧
    (base.setRecord 2 (some (record (.reading .candidate)))).grantDue = true ∧
    (let s := (base.setWriteBack [⟨2, ⟨.write, 0x10, .word, 6⟩⟩]).setRecord 2 (some (record (.writePending 5 6 Flags.zero)));
      s.grantOpen = true ∧ s.ops.writeBack = ⟨2, ⟨.write, 0x10, .word, 6⟩⟩ :: [] ∧
        s.record 2 = some (record (.writePending 5 6 Flags.zero))) ∧
    (let s := base.setHandover [⟨1, .request 9 .plain, ⟨.read, 0, .word, 0⟩⟩];
      s.grantOpen = true ∧ s.ops.writeBack = [] ∧ s.table.handover = ⟨1, .request 9 .plain, ⟨.read, 0, .word, 0⟩⟩ :: []) ∧
    (let s := (base.setHandover [⟨2, .operationRead, ⟨.read, 0x10, .word, 0⟩⟩]).setRecord 2 (some (record (.reading .handover)));
      s.grantOpen = true ∧ s.ops.writeBack = [] ∧ s.table.handover = ⟨2, .operationRead, ⟨.read, 0x10, .word, 0⟩⟩ :: [] ∧
        s.record 2 = some (record (.reading .handover))) := by decide

/-- An accepted item of the outstanding list. -/
def item (o : Origin) (d : Direction) (accepted : Bool := true) : OutItem := ⟨⟨d, 0x10, .half, 0⟩, 0, accepted, o⟩

theorem test_meets_GrantServesThePortsInTurn :
    (let s := withOutstanding (base.modPort 3 (fun x => { x with
        resp := [⟨0, 0, 0, .atMemory⟩, ⟨1, 0, 0, .awaitingGrant .plain ⟨.read, 0, .word, 0⟩⟩] }))
          (List.replicate 3 (item (.request 3 0 .plain) .read));
      s.grantOpen = true ∧ s.ops.writeBack = [] ∧ s.table.handover = [] ∧
        [s.mem.pointer + 1, s.mem.pointer + 2, s.mem.pointer + 3, s.mem.pointer] = [0, 1, 2] ++ 3 :: [] ∧
        (∀ q ∈ ([0, 1, 2] : List Port), s.candidate q = none) ∧
        (s.port 3).resp = [⟨0, 0, 0, .atMemory⟩] ++ ⟨1, 0, 0, .awaitingGrant .plain ⟨.read, 0, .word, 0⟩⟩ :: []) ∧
    (let s := base.setRecord 0 (some (record (.reading .candidate)));
      s.grantOpen = true ∧ [s.mem.pointer + 1, s.mem.pointer + 2, s.mem.pointer + 3, s.mem.pointer] = [] ++ 0 :: [1, 2, 3] ∧
        (s.port 0).resp = [] ∧ s.record 0 = some (record (.reading .candidate))) := by decide

theorem test_meets_TransferIsAccepted :
    let s := withOutstanding base [item (.request 0 0 .plain) .read, item (.request 1 0 .plain) .write false]
    s.mem.outstanding = [item (.request 0 0 .plain) .read] ++ [item (.request 1 0 .plain) .write false] ∧
      (∀ x ∈ [item (.request 0 0 .plain) .read], x.accepted = true) ∧
      (item (.request 1 0 .plain) .write false).accepted = false := by decide

/-- The front item, with another issued at the same time behind it, one microsecond before the limit. -/
def fronted (s : State) (i : OutItem) : State :=
  withOutstanding { s with clock := ⟨63, 0⟩ } [i, item (.request 3 0 .plain) .read false]

theorem front_of_fronted (s : State) (i : OutItem) (ha : i.accepted = true) (hu : s.mem.state = .up) (hl : s.mem.limit = 64) :
    (fronted s i).Front i [item (.request 3 0 .plain) .read false] := by
  refine ⟨hu, rfl, ha, ?_⟩
  intro j hj
  simp only [List.head?_cons, Option.some.injEq] at hj
  subst hj
  simp [fronted, withOutstanding, State.limitTime, State.perMicrosecond, State.setMem, hl, item]

theorem test_meets_PlainTransferCompletes :
    (fronted base (item (.request 0 4 .plain) .read)).Front (item (.request 0 4 .plain) .read)
      [item (.request 3 0 .plain) .read false] := front_of_fronted _ _ (by decide) (by decide) (by decide)

theorem test_meets_AcquireReadCompletes :
    (let s := fronted (withEntry base 2 1 0 (.acquiring false) .acquiring [1]) (item (.request 0 4 (.acquire 2)) .read);
      s.Front (item (.request 0 4 (.acquire 2)) .read) [item (.request 3 0 .plain) .read false] ∧
        s.entry 2 = some ⟨1, 0, .acquiring false, [1]⟩) ∧
    (let s := fronted (withEntry base 2 1 0 (.acquiring true) .acquiring []) (item (.request 0 4 (.acquire 2)) .read);
      s.Front (item (.request 0 4 (.acquire 2)) .read) [item (.request 3 0 .plain) .read false] ∧
        s.entry 2 = some ⟨1, 0, .acquiring true, []⟩) :=
  ⟨⟨front_of_fronted _ _ (by decide) (by decide) (by decide), by decide⟩,
    front_of_fronted _ _ (by decide) (by decide) (by decide), by decide⟩

theorem test_meets_ReleaseWriteCompletes :
    (let s := fronted (withEntry base 2 1 0 (.releasing false) .releasing [1]) (item (.request 0 4 (.release 2)) .write);
      s.Front (item (.request 0 4 (.release 2)) .write) [item (.request 3 0 .plain) .read false] ∧
        s.entry 2 = some ⟨1, 0, .releasing false, [1]⟩) ∧
    (withEntry base 2 1 0 (.releasing true) .releasing []).entry 2 = some ⟨1, 0, .releasing true, []⟩ :=
  ⟨⟨front_of_fronted _ _ (by decide) (by decide) (by decide), by decide⟩, by decide⟩

/-- A part with P2's operation on E2 at memory. -/
def operating (w : EntryWork) (ph : OpPhase) (o : Origin) (d : Direction) : State :=
  fronted ((withEntry base 2 1 2 w .held []).setRecord 2 (some (record ph))) (item o d)

theorem test_meets_OperationReadCompletes :
    (let s := operating .fusingFresh (.reading .outstanding) (.operationRead 2) .read;
      s.Front (item (.operationRead 2) .read) [item (.request 3 0 .plain) .read false] ∧
        s.record 2 = some (record (.reading .outstanding)) ∧ s.entry 2 = some ⟨1, 2, .fusingFresh, []⟩) ∧
    (FusedOp.cswap.atWidth .word 5 5 6).writes = true ∧ (FusedOp.cswap.atWidth .word 4 5 6).writes = false ∧
    (operating (.fusingUnderLock 0 false) (.reading .outstanding) (.operationRead 2) .read).entry 2 =
      some ⟨1, 2, .fusingUnderLock 0 false, []⟩ ∧
    (let s := operating (.fusingUnderLock 0 true) (.reading .outstanding) (.operationRead 2) .read;
      s.entry 2 = some ⟨1, 2, .fusingUnderLock 0 true, []⟩ ∧ (s.port 2).state = .active) :=
  ⟨⟨front_of_fronted _ _ (by decide) (by decide) (by decide), by decide, by decide⟩, by decide, by decide, by decide, by decide⟩

theorem test_meets_WriteBackCompletes :
    (let s := operating .fusingFresh (.writing 5 6 Flags.zero) (.writeBack 2) .write;
      s.Front (item (.writeBack 2) .write) [item (.request 3 0 .plain) .read false] ∧
        s.record 2 = some (record (.writing 5 6 Flags.zero)) ∧ s.entry 2 = some ⟨1, 2, .fusingFresh, []⟩) ∧
    (let s := operating (.fusingUnderLock 0 true) (.writing 5 6 Flags.zero) (.writeBack 2) .write;
      s.entry 2 = some ⟨1, 2, .fusingUnderLock 0 true, []⟩ ∧ (s.port 2).state = .active) ∧
    (operating (.fusingUnderLock 3 false) (.writing 5 6 Flags.zero) (.writeBack 2) .write).entry 2 =
      some ⟨1, 2, .fusingUnderLock 3 false, []⟩ :=
  ⟨⟨front_of_fronted _ _ (by decide) (by decide) (by decide), by decide, by decide⟩, by decide, by decide⟩

theorem test_meets_CompletionOutsideUpIsDiscarded :
    State.reset.mem.state ≠ .up ∧ (down base).mem.state ≠ .up := by decide

theorem test_meets_UnexpectedCompletionTakesThePortDown :
    (base.mem.state = .up ∧ base.mem.outstanding = []) ∧
    (let s := withOutstanding base [item (.request 0 4 .plain) .write false];
      s.mem.state = .up ∧ s.mem.outstanding = [item (.request 0 4 .plain) .write false]) ∧
    (let s := withOutstanding (withEntry base 2 1 0 (.acquiring false) .acquiring []) [item (.request 0 4 (.acquire 2)) .read false];
      s.mem.outstanding = [item (.request 0 4 (.acquire 2)) .read false] ∧ s.entry 2 = some ⟨1, 0, .acquiring false, []⟩) ∧
    (let s := withOutstanding (operating (.fusingUnderLock 0 true) (.writing 5 6 Flags.zero) (.writeBack 2) .write)
        [item (.writeBack 2) .write false];
      s.mem.outstanding = [item (.writeBack 2) .write false] ∧ s.entry 2 = some ⟨1, 2, .fusingUnderLock 0 true, []⟩ ∧
        s.record 2 = some (record (.writing 5 6 Flags.zero)) ∧ (s.port 2).state = .active) := by decide

theorem test_meets_ResponseLimitFailsEveryTransfer :
    (let s := withOutstanding { base with clock := ⟨64, 0⟩ } [item (.request 0 4 .plain) .read];
      s.mem.state = .up ∧ s.mem.limit.toNat * s.perMicrosecond ≤ s.clock.now - (item (.request 0 4 .plain) .read).issueTime) ∧
    (let s := withOutstanding { base with clock := ⟨63, 0⟩ } [item (.request 0 4 .plain) .read];
      s.clock.now - (item (.request 0 4 .plain) .read).issueTime < s.mem.limit.toNat * s.perMicrosecond) ∧
    (let s := withOutstanding { operating .fusingFresh (.reading .outstanding) (.operationRead 2) .read with clock := ⟨64, 0⟩ }
        [item (.operationRead 2) .read, item (.request 0 4 .plain) .write false];
      s.mem.state = .up ∧ s.mem.outstanding = item (.operationRead 2) .read :: [item (.request 0 4 .plain) .write false] ∧
        s.mem.limit.toNat * s.perMicrosecond ≤ s.clock.now - (item (.operationRead 2) .read).issueTime) := by decide

/-- A plain WRITE at the front, at its limit, and one issued with it behind. -/
def atTheLimit : State :=
  withOutstanding { base with clock := ⟨64, 0⟩ } [item (.request 0 4 .plain) .write, item (.request 3 0 .plain) .read false]

theorem test_meets_ResponseLimitAtACompletion :
    atTheLimit.mem.state = .up ∧
    atTheLimit.mem.outstanding = item (.request 0 4 .plain) .write :: [item (.request 3 0 .plain) .read false] ∧
    (item (.request 0 4 .plain) .write).accepted = true ∧
    atTheLimit.mem.limit.toNat * atTheLimit.perMicrosecond ≤
      atTheLimit.clock.now - (item (.request 3 0 .plain) .read false).issueTime ∧
    (fronted base (item (.request 0 4 .plain) .read)).FrontInTime [item (.request 3 0 .plain) .read false] :=
  ⟨by decide, by decide, by decide, by decide, (front_of_fronted _ _ (by decide) (by decide) (by decide)).2.2.2⟩

/-- R141: the completion is taken first, and the expiry fails the transfer behind it. -/
theorem test_completionAtTheLimit :
    let s := (atTheLimit.modPort 0 (fun x => { x with resp := [⟨4, 1, 1, .atMemory⟩] })).modPort 3 (fun x => { x with
      resp := [⟨0, 2, 0, .atMemory⟩] })
    let t := after (.completion .ok 0) s
    t.mem.state = .down .timeout ∧ t.mem.outstanding = [] ∧ (t.port 0).resp = [⟨4, 1, 1, .complete (Answer.plain .done)⟩] ∧
      (t.port 3).resp = [⟨0, 2, 0, .complete (Answer.plain .memError)⟩] := by decide

/-- R140: at the limit both transfers of the list are handed back, the operation's entry is freed and the memory port is DOWN. -/
theorem test_limitFailsTheWholeList :
    let s := withOutstanding { operating .fusingFresh (.reading .outstanding) (.operationRead 2) .read with
        clock := ⟨64, 0⟩ } [item (.operationRead 2) .read, item (.request 0 4 .plain) .write false]
    let s := (s.modPort 0 (fun x => { x with resp := [⟨4, 1, 1, .atMemory⟩] })).modPort 2 (fun x => { x with
      resp := [⟨9, 2, 5, .inOperation⟩] })
    let t := after .responseLimitExpiry s
    t.mem.state = .down .timeout ∧ t.mem.outstanding = [] ∧ t.entry 2 = none ∧ t.record 2 = none ∧
      (t.port 0).resp = [⟨4, 1, 1, .complete (Answer.plain .memError)⟩] ∧
      (t.port 2).resp = [⟨9, 2, 5, .complete (Answer.plain .memError)⟩] := by decide

theorem test_meets_MemIdleTakesThePortUp :
    State.reset.mem.state = .settling ∧ base.mem.state ≠ .settling ∧ (down base).mem.state ≠ .settling := by decide

theorem test_meets_PortResetDropsThePort :
    base.prst 0 = false ∧
    (let s := (withState base 3 .offline .empty).setPrst 3 true;
      s.prst 3 = true ∧ (s.port 3).state = .offline ∧ (s.port 3).profile.enabled = true) ∧
    (let s := State.reset.setPrst 0 true;
      s.prst 0 = true ∧ (s.port 0).state = .offline ∧ (s.port 0).profile.enabled = false) := by decide

/-- A frame in a phase, with MCS_N asserted. -/
def framed (f : Frame) : State := (base.setMcs true).setLink f

/-- Seven bits of a byte position clocked, and what the BMC does next. -/
def clocked (f : Frame) (bits : List Bool) (wire : List (Option Bool)) : State := { framed f with shift := bits, wire := wire }

/-- The first seven bits of $10, and of $11. -/
def sevenBits : List Bool := [false, false, false, true, false, false, false]

/-- R174: the most significant bit comes first, and the eighth rising edge receives the byte: $10 is READ-STATUS. -/
theorem test_eighthBitReceivesTheByte :
    byteOfBits (sevenBits ++ [false]) = 0x10 ∧ byteOfBits (sevenBits ++ [true]) = 0x11 ∧
    (clocked .command sevenBits [some false]).tick.pending = [.readStatus] ∧
    (clocked .command sevenBits [some true]).tick.pending = [.byteReceived 0x11] ∧
    (clocked .command sevenBits [none, some true]).tick.pending = [] := by decide

/-- R174, R178: MCS_N rising discards a byte of seven bits; the first bit of a reply of $A0 is 1, its second 0, its third 1. -/
theorem test_bitsOnTheLink :
    (after .mcsNRising (clocked .command sevenBits [])).shift = [] ∧ (after .mcsNFalling base).mdo = some false ∧ base.mdo = none ∧
    ([[], [false], [false, false]] : List (List Bool)).map (fun l => (clocked (.reply [0xA0] 0) l []).mdo) =
      [some true, some false, some true] := by decide

theorem test_meets_FramesBeginMoveAndEnd :
    (base.pins.mcs = false ∧ base.link = .idle) ∧ (framed .trailing).pins.mcs = true ∧ (framed .command).link = .command ∧
    (0x15 : Byte) ∉ ([0x10, 0x11, 0x12, 0x13, 0x14, 0x21, 0x22, 0x23, 0x24, 0x31, 0x32, 0x33, 0x34] : List Byte) ∧
    (MaintCommand.ofByte 0x11 = some .readPort ∧ MaintCommand.readPort.argCount ≠ 0) ∧
    ((framed (.arguments .writeRegion [])).link = .arguments .writeRegion [] ∧
      ([] : List Byte).length + 1 < MaintCommand.writeRegion.argCount) ∧
    ((framed (.reply [0xA0, 1] 0)).link = .reply [0xA0, 1] 0 ∧ 0 + 1 < ([0xA0, 1] : List Byte).length) ∧
    1 + 1 = ([0xA0, 1] : List Byte).length ∧ (framed .deselectWait).link = .deselectWait ∧
    ((framed .command).link.mdo = some 0 ∧ (clocked .command sevenBits [some true]).shift.length < 8) ∧
    ((clocked .command sevenBits [some true]).wire = some true :: [] ∧
      (clocked .command sevenBits [some true]).shift.length = 7 ∧
      ∀ n < 8, ((clocked .command sevenBits [some true]).shift ++ [true])[n]? = some ((0x11 : Byte).getMsbD n)) ∧
    ((framed .trailing).shift.length < 7 ∧ MaintCommand.ofByte 0x10 = some .readStatus) := by decide

theorem test_meets_ReadCommandsReplyAndChangeNothing :
    (framed .command).link = .command ∧ (framed (.arguments .readPort [])).link = .arguments .readPort [] ∧
    (framed (.arguments .readRegion [])).link = .arguments .readRegion [] ∧
    (framed (.arguments .readLock [])).link = .arguments .readLock [] ∧
    (3 : Byte).toNat = (3 : Port).val ∧ 4 ≤ (4 : Byte).toNat ∧ (15 : Byte).toNat = (15 : RegionIx).val ∧
    16 ≤ (16 : Byte).toNat ∧ (7 : Byte).toNat = (7 : EntryIx).val ∧ 8 ≤ (8 : Byte).toNat := by decide

theorem test_meets_WriteProfileIsJudgedInOrder :
    (framed (.arguments .writeProfile [3, 0xC1, 0, 1])).link = .arguments .writeProfile [3, 0xC1, 0, 1] ∧
    4 ≤ (4 : Byte).toNat ∧ (3 : Byte).toNat = (3 : Port).val ∧ ((framed .command).port 3).state = .active ∧
    ((withState base 3 .paused .empty).port 3).state = .paused ∧ (State.reset.port 3).state = .offline ∧
    (((0 : Byte) ++ (1 : Byte)).extractLsb' 0 10 ≠ (0 : BitVec 10) ∧ (0xC1 : Byte).extractLsb' 0 2 = (1 : BitVec 2) ∧
      (0x3E : Byte) = ~~~ 0xC1) ∧
    ((4 : Byte) ++ (0 : Byte)).extractLsb' 0 10 = (0 : BitVec 10) ∧
    ((0xC1 : Byte).extractLsb' 0 2).toNat < ((base.setHeldLines 3 [⟨1, .held⟩, ⟨2, .held⟩]).heldLines 3).length ∧
    (0x41 : Byte).getLsbD 7 = false ∧ State.reset.prst 3 = false ∧ (State.reset.setPrst 3 true).prst 3 = true := by decide

theorem test_meets_PauseAndResumeThePort :
    (framed (.arguments .pausePort [])).link = .arguments .pausePort [] ∧
    (framed (.arguments .resumePort [])).link = .arguments .resumePort [] ∧ 4 ≤ (4 : Byte).toNat ∧
    (0 : Byte).toNat = (0 : Port).val ∧ (base.port 0).state = .active ∧ ((withState base 0 .paused .empty).port 0).state = .paused ∧
    ((withState base 0 .fenced .empty).port 0).state = .fenced ∧ (State.reset.port 0).state = .offline := by decide

theorem test_meets_AckFaultEmptiesTheRecord :
    ((framed (.arguments .ackFault [])).link = .arguments .ackFault [] ∧ 4 ≤ (4 : Byte).toNat ∧ (0 : Byte).toNat = (0 : Port).val ∧
      ((withState base 0 .fenced (.two ⟨.denied, 0, none⟩ .limit)).port 0).fault ≠ .empty ∧
      ((withState base 0 .paused oneFault).port 0).state ≠ .fenced ∧ (base.port 0).fault = .empty ∧
      (State.reset.port 0).state = .offline) ∧
    State.reset.PortStatesLegal := by
  refine ⟨by decide, fun p => ⟨fun _ => ?_, ?_, fun _ => ?_⟩⟩
  · revert p; decide
  · have h : ∀ p, (State.reset.port p).state ≠ .fenced ∧ (State.reset.port p).fault = .empty := by decide
    refine ⟨fun hf => absurd hf (h p).1, ?_⟩
    rintro ⟨r, k, hk⟩
    rw [(h p).2] at hk
    cases hk
  · revert p; decide

theorem test_meets_WriteRegionNeedsQuiet :
    (framed (.arguments .writeRegion [15, 0x80, 0, 0, 0, 1, 0, 0])).link =
      .arguments .writeRegion [15, 0x80, 0, 0, 0, 1, 0, 0] ∧
    16 ≤ (16 : Byte).toNat ∧ (15 : Byte).toNat = (15 : RegionIx).val ∧ (0x80 : Byte).getLsbD 7 = true ∧
    (0 : Byte) ++ (0 : Byte) ++ (0 : Byte) < (0 : Byte) ++ (0 : Byte) ++ (1 : Byte) ∧ (0x3F : Byte).getLsbD 7 = false ∧
    (0 : Byte) ++ (0 : Byte) ++ (1 : Byte) ≤ (0 : Byte) ++ (0 : Byte) ++ (1 : Byte) ∧
    base.quiet = false ∧ State.reset.quiet = true := by decide

theorem test_meets_BreakLockBreaksAHeldEntry :
    ((framed (.arguments .breakLock [])).link = .arguments .breakLock [] ∧ 8 ≤ (8 : Byte).toNat ∧
      (7 : Byte).toNat = (7 : EntryIx).val ∧
      (withEntry base 7 1 0 (.held 9) .held []).entry 7 = some ⟨1, 0, .held 9, []⟩) ∧
    ∀ x n, base.entry 7 = some x → x.work ≠ .held n :=
  ⟨by decide, fun x n h => by rw [show base.entry 7 = none by decide] at h; cases h⟩

theorem test_meets_SetResponseLimitIsJudged :
    (framed (.arguments .setResponseLimit [])).link = .arguments .setResponseLimit [] ∧
    (withOutstanding base [item (.request 0 4 .plain) .write false]).mem.outstanding ≠ [] ∧ (1 : Byte) ≠ 0 ∧ (255 : Byte) ≠ 0 ∧
    base.mem.outstanding = [] := by decide

theorem test_meets_RecoverMemoryLeavesDown :
    (framed .command).link = .command ∧ (down (framed .command)).mem.state = .down .timeout ∧
    (down (framed .command)).pins.memIdle = true ∧
    (let s := (down (framed .command)).setPins ⟨Vector.replicate 4 false, true, false, true⟩;
      s.mem.state = .down .timeout ∧ s.pins.memIdle = false) ∧
    (framed .command).mem.state = .up ∧ (State.reset.setLink .command).mem.state = .settling ∧
    (∀ p, ((down (framed .command)).port p).fault = .empty) ∧
    exec .recoverMemory (down (framed .command)) = .next ((framed .command).replied [0xA0]) :=
  ⟨by decide, by decide, by decide, by decide, by decide, by decide, by decide, rfl⟩

theorem test_meets_SettingsChangeOnlyByTheirCommands :
    exec .mcsNFalling base = .next (framed .command) ∧ exec .grant base = .next base := ⟨rfl, rfl⟩

theorem test_meets_MatchingRegionIsTheLowestNumbered :
    lineOf 0xFFFFFFF0 = lineOf 0xFFFFFFFF ∧ (examplePart.matchRegion 0 (blockOf 0x10F00)) = some examplePart.regions[3] ∧
    (examplePart.matchRegion 0 (blockOf 0x11000)) = some examplePart.regions[5] ∧ examplePart.matchRegion 0 0xFFFFFF = none := by
  decide

/-- P0's operation on E7, its read outstanding. -/
def inFlight (w : EntryWork) : State :=
  withEntry (base.setRecord 0 (some ⟨.add, .word, 0x10, 1, 0, .reading .outstanding, .fresh, 7, false, 9⟩)) 7 1 0 w .held [2]

theorem test_meets_TeardownLeavesOnlyWorkInFlight :
    ((inFlight .fusingFresh).teardown 0).entry 7 = some ⟨1, 0, .fusingFresh, [2]⟩ ∧
    ((inFlight (.fusingUnderLock 5 true)).teardown 0).entry 7 = some ⟨1, 0, .fusingDetached, [2]⟩ ∧
    (∀ r, (inFlight .fusingFresh).record 0 = some r → r.entry = 7) ∧ (inFlight (.held 9)).entry 7 = some ⟨1, 0, .held 9, [2]⟩ ∧
    (let s := withOutstanding (inFlight (.acquiring false)) [item (.request 0 4 (.acquire 7)) .read];
      s.entry 7 = some ⟨1, 0, .acquiring false, [2]⟩ ∧
        ∃ i ∈ s.mem.outstanding, i.origin = .request 0 4 (.acquire 7) ∨ i.origin = .request 0 4 (.release 7)) ∧
    (inFlight (.releasing false)).mem.outstanding = [] ∧
    (inFlight (.releasing false)).entry 7 = some ⟨1, 0, .releasing false, [2]⟩ ∧ EntryWork.fusingDetached.detached = true := by
  refine ⟨by decide, by decide, ?_, by decide, by decide, by decide, by decide, by decide⟩
  intro r hr
  rw [show (inFlight .fusingFresh).record 0 = some ⟨.add, .word, 0x10, 1, 0, .reading .outstanding, .fresh, 7, false, 9⟩ by
    decide] at hr
  cases hr
  rfl

theorem test_meets_StatusShowsAlertAndQuiet :
    let s := (withOutstanding (base.setHandover (List.replicate 4 ⟨1, .request 9 .plain, ⟨.read, 0, .word, 0⟩⟩))
      (List.replicate 4 (item (.writeBack 3) .write))).setEntryWait [3, 2, 1, 0]
    let s := s.setWriteBack (List.replicate 4 ⟨2, ⟨.write, 0x10, .word, 6⟩⟩)
    s.mem.outstanding.length ≤ 4 ∧ s.table.handover.length ≤ 4 ∧ s.ops.writeBack.length ≤ 4 ∧ s.table.entryWait.length ≤ 4 ∧
      s.statusBytes = [0x55, 0x10, 0x44, 0x04, 4, 0x1B, 0] := by decide

theorem test_meets_PortAndRegionAreReported :
    let s := ((base.modPort 2 (fun x => { x with
        queue := List.replicate 8 (ask 0 2 0)
        resp := List.replicate 4 ⟨0, 0, 0, .atMemory⟩
        fault := .first ⟨.limit, 4, some ⟨7, 5, .user⟩⟩ })).setHeldLines 2 [⟨1, .held⟩, ⟨2, .broken .maintenance⟩]);
    (s.port 2).inbound ≤ 8 ∧ (s.port 2).resp.length ≤ 4 ∧ (s.heldLines 2).length ≤ 2 ∧
      (s.heldLines 2)[1]? = some ⟨2, .broken .maintenance⟩ := by decide

theorem test_meets_LockAndMemoryPortAreReported :
    base.entry 7 = none ∧ (withEntry base 7 1 0 (.held 1023) .held [1, 2, 3]).entry 7 = some ⟨1, 0, .held 1023, [1, 2, 3]⟩ ∧
    ([1, 2, 3] : List Port).length ≤ 3 ∧ 1023 ≤ 1023 * base.perMicrosecond ∧
    (withEntry base 0 1 0 .fusingFresh .held []).entry 0 = some ⟨1, 0, .fusingFresh, []⟩ ∧
    (∀ n, EntryWork.fusingFresh ≠ .held n ∧ ∀ due, EntryWork.fusingFresh ≠ .fusingUnderLock n due) ∧
    (let s := withOutstanding base (List.replicate 4 (item (.writeBack 3) .write));
      s.mem.outstanding.length ≤ 4 ∧ s.mem.outstanding[3]? = some (item (.writeBack 3) .write)) ∧
    base.mem.outstanding[0]? = none :=
  ⟨by decide, by decide, by decide, by decide, by decide, fun _ => ⟨by simp, by simp⟩, by decide, by decide⟩

/-- The codes of states, conditions and origins, gathered before R196. -/
theorem test_stateCodes :
    ([.offline, .active, .paused, .fenced] : List PortState).map PortState.code = [0, 1, 2, 3] ∧
    ([.acquiring, .held, .releasing, .broken .timeout] : List HeldState).map HeldState.code = [1, 2, 3, 4] ∧
    ([.awaitingGrant .plain ⟨.read, 0, .byte, 0⟩, .atMemory, .inOperation, .parked, .entryWait, .handedOver,
      .complete (Answer.plain .done)] : List RespState).map RespState.code = [1, 2, 3, 4, 5, 6, 7] ∧
    ([.request 0 0 .plain, .request 0 0 (.acquire 0), .request 0 0 (.release 0), .operationRead 0, .writeBack 0] :
      List Origin).map Origin.code = [0, 1, 2, 3, 4] := by decide

theorem test_meets_TheResultStatements :
    0 < 8 ∧ (0xFF : BitVec 8) = BitVec.allOnes 8 ∧ 7 < 8 ∧ (0x42 : BitVec 8) = 0x42 ∧
    ((record (.reading .outstanding)).op.atWidth .word 4 5 6).writes = false ∧
    (record (.writing 5 6 Flags.zero)).phase = .writing 5 6 Flags.zero := by decide

/-! Each law holds of a state that is not the reset state, and a step leads on from it. -/

theorem test_meets_EveryStepKeepsLinesDistinct :
    exhausted.LinesDistinct ∧ (∀ e, exhausted.entry e ≠ none) ∧ ∃ t, step exhausted = .next t :=
  ⟨linesDistinct_of (by decide), by decide, _, rfl⟩

theorem test_meets_EveryStepKeepsTheListsBounded :
    let s := withHead (withOutstanding base (List.replicate 3 (item (.request 0 4 .plain) .read) ++
      [item (.request 1 0 .plain) .write false])) 0 (ask 0 2 0)
    s.OutstandingBounded ∧ s.QueuesBounded ∧ s.mem.outstanding.length = 4 ∧ ∃ t, step s = .next t := by
  refine ⟨⟨by decide, by decide, by decide⟩, ?_, by decide, _, rfl⟩
  intro p; revert p; decide

/-- P0 is FENCED, with two faults. -/
def fencedPart : State := withState base 0 .fenced (.two ⟨.denied, 0, none⟩ .limit)

theorem test_meets_EveryStepKeepsPortStatesLegal :
    fencedPart.PortStatesLegal ∧ (fencedPart.port 0).state = .fenced ∧ ∃ t, step fencedPart = .next t := by
  refine ⟨fun p => ⟨?_, ?_, ?_⟩, by decide, _, rfl⟩
  · revert p; decide
  · by_cases hp : p = 0
    · subst hp
      exact ⟨fun _ => ⟨⟨.denied, 0, none⟩, .limit, by decide⟩, fun _ => by decide⟩
    · have h : ∀ q : Port, q ≠ 0 → (fencedPart.port q).state ≠ .fenced ∧ (fencedPart.port q).fault = .empty := by decide
      refine ⟨fun hf => absurd hf (h p hp).1, ?_⟩
      rintro ⟨r, k, hk⟩
      rw [(h p hp).2] at hk
      cases hk
  · revert p; decide

theorem test_meets_EveryStepKeepsFramesAndSettingsLegal :
    (framed (.reply [0xA0, 1] 1)).FrameLegal ∧ (framed (.reply [0xA0, 1] 1)).SettingsLegal ∧
      ∃ t, step (framed (.reply [0xA0, 1] 1)) = .next t := by
  refine ⟨⟨by decide, ?_, ?_⟩, ⟨by decide, by decide, by decide⟩, _, rfl⟩
  · intro c got h
    cases h
  · intro bytes sent h
    cases h
    decide

theorem test_meets_EveryStepKeepsOutOfServicePortsAbsent :
    fencedPart.OutOfServiceAbsent ∧ (fencedPart.port 0).state = .fenced ∧ ∃ t, step fencedPart = .next t := by
  have he : ∀ e, fencedPart.entry e = none := by decide
  refine ⟨fun p _ => ⟨?_, by revert p; decide, by revert p; decide, by revert p; decide⟩, by decide, _, rfl⟩
  intro e x hx
  rw [he e] at hx
  cases hx

theorem test_meets_EveryStepLeavesNoEntryFreeWhileAPortWaits :
    (exhausted.setEntryWait [1]).NoneFreeWhileWaiting ∧ (exhausted.setEntryWait [1]).table.entryWait ≠ [] ∧
      ∃ t, step (exhausted.setEntryWait [1]) = .next t :=
  ⟨by intro _; decide, by decide, _, rfl⟩

end Sys2Proof.Tests
end

/-! PROOF. ACK-FAULT at its point of effect (R26, R158, R188), over the rules of a frame's last argument and of its port number. -/

namespace Sys2Proof.Machine

/-! ### The point of effect of a frame -/

/-- R176: the byte that brings the received bytes to the argument count runs the command and enters its reply. -/
theorem State.atLastArgument_of_link {s : State} {c : MaintCommand} {got : List Byte} (b : Byte)
    (run : List Byte → State → State × Reply) (hlink : s.link = .arguments c got) (hcount : got.length + 1 = c.argCount) :
    s.atLastArgument c b run = (run (got ++ [b]) s).1.enterReply (run (got ++ [b]) s).2 := by
  simp [State.atLastArgument, hlink, Frame.lastArgument, hcount]

/-- A reply of the status alone is the one byte of its code (R177). -/
theorem State.enterReply_just (s : State) (st : Status) : s.enterReply (.just st) = s.replied [st.code] := rfl

/-! ### A port number as an argument -/

theorem portArg_of_ge {b : Byte} (h : 4 ≤ b.toNat) : portArg b = none := dif_neg (Nat.not_lt.mpr h)

theorem portArg_of_toNat_eq {b : Byte} {p : Port} (h : b.toNat = p.val) : portArg b = some p := by
  simp [portArg, h]

/-- R180: a port number out of range is BAD-ARG, whatever the command does. -/
theorem State.withPort_of_ge (s : State) {b : Byte} (run : Port → State × Reply) (h : 4 ≤ b.toNat) :
    s.withPort b run = (s, .just .badArg) := by
  simp only [State.withPort, portArg_of_ge h]

theorem State.withPort_of_toNat_eq (s : State) {b : Byte} {p : Port} (run : Port → State × Reply) (h : b.toNat = p.val) :
    s.withPort b run = run p := by
  simp only [State.withPort, portArg_of_toNat_eq h]

/-! ### What an acknowledgement does to the port -/

theorem FaultRecord.occupied_iff (f : FaultRecord) : f.occupied = true ↔ f ≠ .empty := by
  cases f <;> simp [FaultRecord.occupied]

theorem PortIf.acknowledged_of_fenced {x : PortIf} (h : x.state = .fenced) :
    x.acknowledged = { x with fault := .empty, state := .paused } := by
  simp only [PortIf.acknowledged, h]

theorem PortIf.acknowledged_of_not_fenced {x : PortIf} (h : x.state ≠ .fenced) :
    x.acknowledged = { x with fault := .empty } := by
  unfold PortIf.acknowledged
  split
  · contradiction
  · rfl

theorem State.ackFault_of_empty {s : State} {p : Port} (h : (s.port p).fault = .empty) :
    s.ackFault p = (s, .just .wrongState) :=
  if_neg (by simp [FaultRecord.occupied_iff, h])

theorem State.ackFault_of_occupied {s : State} {p : Port} (h : (s.port p).fault ≠ .empty) :
    s.ackFault p = (s.modPort p PortIf.acknowledged, .just .ok) :=
  if_pos ((FaultRecord.occupied_iff _).mpr h)

/-! ### The command -/

section
variable {s : State} {p : Port} {b : Byte} (hlink : s.link = .arguments .ackFault [])
include hlink

/-- ACK-FAULT has one argument, so its first byte is its point of effect (R176, R188). -/
theorem exec_ackFault :
    exec (.ackFault b) s = .next ((s.withPort b s.ackFault).1.enterReply (s.withPort b s.ackFault).2) :=
  congrArg Host.Outcome.next (s.atLastArgument_of_link b _ hlink rfl)

theorem exec_ackFault_of_ge (hb : 4 ≤ b.toNat) : exec (.ackFault b) s = .next (s.replied [0xA2]) := by
  rw [exec_ackFault hlink, s.withPort_of_ge _ hb, State.enterReply_just]
  rfl

theorem exec_ackFault_of_empty (hb : b.toNat = p.val) (hf : (s.port p).fault = .empty) :
    exec (.ackFault b) s = .next (s.replied [0xA3]) := by
  rw [exec_ackFault hlink, s.withPort_of_toNat_eq _ hb, State.ackFault_of_empty hf, State.enterReply_just]
  rfl

/-- On an occupied record the port becomes what the acknowledgement makes of it, and nothing else changes but the reply. -/
theorem exec_ackFault_of_occupied (hb : b.toNat = p.val) (hf : (s.port p).fault ≠ .empty) (f : PortIf → PortIf)
    (hack : (s.port p).acknowledged = f (s.port p)) :
    exec (.ackFault b) s = .next ((s.modPort p f).replied [0xA0]) := by
  rw [exec_ackFault hlink, s.withPort_of_toNat_eq _ hb, State.ackFault_of_occupied hf, State.enterReply_just,
    s.modPort_congr p _ f hack]
  rfl

end

/-- Settles O48: the port number is judged first, then the record, and an occupied record by whether the port is FENCED. -/
theorem ackFaultEmptiesTheRecord : Obligations.AckFaultEmptiesTheRecord := by
  intro s p b hlink
  refine ⟨exec_ackFault_of_ge hlink, fun hb => ⟨fun hf hst => ?fenced, fun hf hst => ?inService, fun hf => ?empty,
    fun hlegal hst => ?offline⟩⟩
  case fenced => exact exec_ackFault_of_occupied hlink hb hf _ (PortIf.acknowledged_of_fenced hst)
  case inService => exact exec_ackFault_of_occupied hlink hb hf _ (PortIf.acknowledged_of_not_fenced hst)
  case empty => exact exec_ackFault_of_empty hlink hb hf
  case offline =>
    obtain ⟨_, _, hoffline⟩ := hlegal p
    obtain ⟨_, _, _, hf⟩ := hoffline hst
    exact exec_ackFault_of_empty hlink hb hf

end Sys2Proof.Machine

/-! PROOF. The head check (R34..R40): when a code is undefined, and what steps 1 to 6 give, one lemma per outcome; then what a head of
an ACTIVE port is answered by each test. -/

namespace Sys2Proof.Machine

/-! ### Undefined codes (R193) and ADDR off its width (R37) -/

theorem Width.ofCode_eq_none_iff {c : BitVec 2} : Width.ofCode c = none ↔ c.toNat = 3 := by
  unfold Width.ofCode
  split
  case h_4 => simp only [true_iff, imp_false] at *; omega
  all_goals simp [*]

theorem FusedOp.ofCode_eq_none_iff {c : BitVec 3} : FusedOp.ofCode c = none ↔ c.toNat = 7 := by
  unfold FusedOp.ofCode
  split
  case h_8 => simp only [true_iff, imp_false] at *; omega
  all_goals simp [*]

/-- OP decides only where KIND is FUSED (R36). -/
theorem Kind.ofCodes_eq_none_iff {kind op : BitVec 3} :
    Kind.ofCodes kind op = none ↔ 6 ≤ kind.toNat ∨ kind.toNat = 5 ∧ op.toNat = 7 := by
  unfold Kind.ofCodes
  split
  case h_6 hkind => simp [hkind, FusedOp.ofCode_eq_none_iff]
  case h_7 => simp only [true_iff, imp_false] at *; omega
  all_goals simp [*]

/-- The undefined codes as R36 names them. -/
theorem codes_undefined_iff {r : Request} : Kind.ofCodes r.kind r.op = none ∨ Width.ofCode r.width = none ↔
    6 ≤ r.kind.toNat ∨ r.width.toNat = 3 ∨ r.kind.toNat = 5 ∧ r.op.toNat = 7 := by
  rw [Kind.ofCodes_eq_none_iff, Width.ofCode_eq_none_iff, or_assoc, or_comm (a := _ ∧ _)]

theorem codes_decode {r : Request} (h : ¬ (Kind.ofCodes r.kind r.op = none ∨ Width.ofCode r.width = none)) :
    ∃ k w, Kind.ofCodes r.kind r.op = some k ∧ Width.ofCode r.width = some w := by
  obtain ⟨hk, hw⟩ := not_or.mp h
  obtain ⟨k, hk⟩ := Option.ne_none_iff_exists'.mp hk
  obtain ⟨w, hw⟩ := Option.ne_none_iff_exists'.mp hw
  exact ⟨k, w, hk, hw⟩

theorem aligned_iff {a : Word} {w : Width} : aligned a w = true ↔ a.toNat % w.bytes = 0 := beq_iff_eq

/-- An ADDR can be off its width at a HALF and at a WORD only. -/
theorem not_aligned_iff {a : Word} {c : BitVec 2} {w : Width} (hw : Width.ofCode c = some w) :
    ¬ aligned a w = true ↔ c.toNat = 1 ∧ a.toNat % 2 ≠ 0 ∨ c.toNat = 2 ∧ a.toNat % 4 ≠ 0 := by
  rw [aligned_iff]
  unfold Width.ofCode at hw
  split at hw
  case h_4 => cases hw
  all_goals
    cases hw
    simp [*, Width.bytes, Nat.mod_one]

/-! ### The rights of a kind (R30) -/

theorem PortIf.effective_eq_user_iff {x : PortIf} {r : Request} :
    x.effective r = .user ↔ x.profile.capUser = true ∨ r.priv = .user := by
  unfold PortIf.effective
  split <;> simp [*]

theorem Region.mayRead_iff {g : Region} {v : Priv} : g.mayRead v = true ↔ if v = .user then g.ur = true else g.sr = true := by
  cases v <;> simp [Region.mayRead]

theorem Region.mayWrite_iff {g : Region} {v : Priv} : g.mayWrite v = true ↔ if v = .user then g.uw = true else g.sw = true := by
  cases v <;> simp [Region.mayWrite]

/-! ### What steps 1 to 6 give -/

section
variable {s : State} {p : Port} {r : Request} {rest : List Request} {k : Kind} {w : Width} {g : Region}

/-- Steps 5 and 6 fix no outcome but their own two (R39, R40). -/
theorem State.checkRights_refused {o : OutcomeCode} (h : s.checkRights p r k w = .refused o) : o = .noRegion ∨ o = .denied := by
  unfold State.checkRights at h
  split at h
  case h_1 => cases h; exact .inl rfl
  case h_2 =>
    split at h
    case isTrue => cases h
    case isFalse => cases h; exact .inr rfl

theorem State.checkRights_of_no_region (hg : s.matchRegion p (blockOf r.addr) = none) :
    s.checkRights p r k w = .refused .noRegion := by
  simp only [State.checkRights, hg]

theorem State.checkRights_of_region (hg : s.matchRegion p (blockOf r.addr) = some g) :
    s.checkRights p r k w = if g.permits (s.port p).profile k ((s.port p).effective r)
      then .passed ⟨k, r.addr, w, r.data, r.data2, g.readthru⟩ else .refused .denied := by
  simp only [State.checkRights, hg]

/-- Step 2 (R36). -/
theorem State.headCheck_of_undefined (ha : (s.port p).state = .active)
    (h : Kind.ofCodes r.kind r.op = none ∨ Width.ofCode r.width = none) : s.headCheck p r = .refused .badRequest := by
  unfold State.headCheck
  rw [if_neg (by simp [ha])]
  split
  case h_1 hk hw => simp [hk, hw] at h
  all_goals rfl

/-- With defined codes step 3 is reached (R37). -/
theorem State.headCheck_of_codes (ha : (s.port p).state = .active) (hk : Kind.ofCodes r.kind r.op = some k)
    (hw : Width.ofCode r.width = some w) :
    s.headCheck p r = if aligned r.addr w then s.checkRights p r k w else .refused .misaligned := by
  simp [State.headCheck, ha, hk, hw]

theorem State.headCheck_ne_badRequest (ha : (s.port p).state = .active) (hk : Kind.ofCodes r.kind r.op = some k)
    (hw : Width.ofCode r.width = some w) : s.headCheck p r ≠ .refused .badRequest := by
  rw [State.headCheck_of_codes ha hk hw]
  split
  case isTrue => exact fun h => by simpa using State.checkRights_refused h
  case isFalse => simp

theorem State.headCheck_ne_misaligned (ha : (s.port p).state = .active) (hk : Kind.ofCodes r.kind r.op = some k)
    (hw : Width.ofCode r.width = some w) (hal : aligned r.addr w = true) : s.headCheck p r ≠ .refused .misaligned := by
  rw [State.headCheck_of_codes ha hk hw, if_pos hal]
  exact fun h => by simpa using State.checkRights_refused h

/-- A refusal that is a fault, with what the decision makes of it over an empty record (R43). -/
theorem headCheck_refused_and_decision {o : OutcomeCode} {f : FaultKind} (h : s.Decides p r rest) (hf : o.fault = some f)
    (hc : s.headCheck p r = .refused o) :
    s.headCheck p r = .refused o ∧ ((s.port p).fault = .empty →
      exec (.decision p) s = .next (s.modPort p (fun x => x.faulted r rest o f))) :=
  ⟨hc, decision_refused h hc hf⟩

end

/-! ### The statements -/

/-- Settles O8: the codes are judged first, and where they decode ADDR is judged by the decoded width; the steps behind refuse with
neither outcome. -/
theorem codesAndAlignmentAreTested : Obligations.CodesAndAlignmentAreTested := by
  intro s p r rest h undefinedCode unaligned
  have ha : (s.port p).state = .active := h.2.1
  refine ⟨fun hu => ?undefinedCode, fun hu => ?definedCodes, fun hu hn => ?unaligned, fun hu hn => ?aligned⟩
  case undefinedCode =>
    exact headCheck_refused_and_decision h rfl (State.headCheck_of_undefined ha (codes_undefined_iff.mpr hu))
  all_goals obtain ⟨k, w, hk, hw⟩ := codes_decode (codes_undefined_iff.not.mpr hu)
  case definedCodes => exact State.headCheck_ne_badRequest ha hk hw
  case unaligned =>
    refine headCheck_refused_and_decision h rfl ?_
    rw [State.headCheck_of_codes ha hk hw, if_neg ((not_aligned_iff hw).mpr hn)]
  case aligned => exact State.headCheck_ne_misaligned ha hk hw (by_contra fun hal => hn ((not_aligned_iff hw).mp hal))

/-- Settles O10: with defined codes and an aligned ADDR the head check is the region's match and the rights of the kind, one case per
kind. -/
theorem regionAndRightsAreChecked : Obligations.RegionAndRightsAreChecked := by
  intro s p r rest k w h hk hw hal
  have hcheck : s.headCheck p r = s.checkRights p r k w := by
    rw [State.headCheck_of_codes h.2.1 hk hw, if_pos (aligned_iff.mpr hal)]
  refine ⟨fun hg => ?noRegion, fun g hg => ?region⟩
  case noRegion => exact headCheck_refused_and_decision h rfl (hcheck.trans (State.checkRights_of_no_region hg))
  case region =>
    intro user read write permitted
    have hread : g.mayRead ((s.port p).effective r) = true ↔ read := by
      simp only [Region.mayRead_iff, PortIf.effective_eq_user_iff, read, user]
    have hwrite : g.mayWrite ((s.port p).effective r) = true ↔ write := by
      simp only [Region.mayWrite_iff, PortIf.effective_eq_user_iff, write, user]
    have hpermits : g.permits (s.port p).profile k ((s.port p).effective r) = true ↔ permitted := by
      cases k with
      | read => exact hread
      | write | releaseWrite => exact hwrite
      | lockRead | fused op => simp only [Region.permits, Bool.and_eq_true, hread, hwrite, and_assoc, permitted]
      | unlock => simp only [Region.permits, permitted]
    rw [State.checkRights_of_region hg] at hcheck
    refine ⟨fun hn => ?denied, fun hy => ?passed⟩
    case denied => exact headCheck_refused_and_decision h rfl (hcheck.trans (if_neg (hpermits.not.mpr hn)))
    case passed => exact hcheck.trans (if_pos (hpermits.mpr hy))

end Sys2Proof.Machine

/-! PROOF. The result and flags of the fused operations (R107..R111), at every width: one rule per flag of the shared N and Z, of ADD
and of SUB, and one equation per operation; then the statements from them. -/

namespace Sys2Proof.Machine

section
variable {w : Nat} (m s t x : BitVec w)

/-! ### N and Z of a value -/

theorem signZero_n (v c : Bool) : (signZero x v c).n = x.getLsbD (w - 1) := x.msb_eq_getLsbD_last

theorem signZero_z_iff (v c : Bool) : (signZero x v c).z = true ↔ x = 0 := beq_iff_eq

/-! ### The flags of ADD (R107) -/

theorem addFlags_v_iff : (addFlags m s).v = true ↔ m.msb = s.msb ∧ (m + s).msb ≠ m.msb := by
  simp only [addFlags, signZero, Bool.and_eq_true, beq_iff_eq, bne_iff_ne]

theorem addFlags_c_iff : (addFlags m s).c = true ↔ 2 ^ w ≤ m.toNat + s.toNat := decide_eq_true_iff

/-- S = 2^w − 1 stands for −1. -/
theorem add_allOnes_eq_sub_one : m + BitVec.allOnes w = m - 1 := by
  rw [← BitVec.neg_one_eq_allOnes, sub_eq_add_neg]
  rfl

/-- A decrement carries out of the word except from zero. -/
theorem addFlags_allOnes_c_iff : (addFlags m (BitVec.allOnes w)).c = true ↔ m ≠ 0 := by
  have hpos : 0 < 2 ^ w := Nat.two_pow_pos w
  calc (addFlags m (BitVec.allOnes w)).c = true
    _ ↔ 2 ^ w ≤ m.toNat + (2 ^ w - 1) := by rw [addFlags_c_iff, BitVec.toNat_allOnes]
    _ ↔ m.toNat ≠ 0 := by omega
    _ ↔ m ≠ 0 := by simp [BitVec.toNat_ne]

/-! ### The flags of SUB (R108) -/

theorem toNat_sub_eq_emod : ((m - s).toNat : Int) = ((m.toNat : Int) - s.toNat) % 2 ^ w := by
  have hle : s.toNat ≤ 2 ^ w := s.isLt.le
  have hsum : (2 : Int) ^ w - s.toNat + m.toNat = m.toNat - s.toNat + 2 ^ w := by omega
  rw [BitVec.toNat_sub]
  push_cast [hle]
  rw [hsum, Int.add_emod_right]

theorem subFlags_v_iff : (subFlags m s).v = true ↔ m.msb ≠ s.msb ∧ (m - s).msb ≠ m.msb := by
  simp only [subFlags, signZero, Bool.and_eq_true, bne_iff_ne]

theorem subFlags_c_iff : (subFlags m s).c = true ↔ m.toNat < s.toNat := decide_eq_true_iff

theorem subFlags_z_iff : (subFlags m s).z = true ↔ m = s := (signZero_z_iff _ _ _).trans sub_eq_zero

/-- V of SUB is the signed overflow of M − S. -/
theorem subFlags_v_eq_ssubOverflow : (subFlags m s).v = m.ssubOverflow s := by
  rw [BitVec.ssubOverflow_eq]
  simp only [subFlags, signZero]
  cases m.msb <;> cases s.msb <;> cases (m - s).msb <;> rfl

/-- N differing from V tells M below S signed: without overflow N is the sign of the true difference; with it the signs differ, and R
has the sign of S. -/
theorem subFlags_n_ne_v_iff : (subFlags m s).n ≠ (subFlags m s).v ↔ m.toInt < s.toInt := by
  have hn : (subFlags m s).n = (m - s).msb := rfl
  cases hv : (subFlags m s).v with
  | false =>
    have hdiff : (m - s).toInt = m.toInt - s.toInt :=
      BitVec.toInt_sub_of_not_ssubOverflow (by simp [← subFlags_v_eq_ssubOverflow, hv])
    simp only [hn, BitVec.msb_eq_toInt, hdiff, ne_eq, decide_eq_false_iff_not, not_not]
    omega
  | true =>
    obtain ⟨hsigns, hsign⟩ := (subFlags_v_iff m s).mp hv
    rw [hn, Bool.eq_not.mpr hsign]
    simp only [BitVec.msb_eq_toInt, ne_eq, decide_eq_decide, Bool.not_eq_true', decide_eq_false_iff_not, not_not] at hsigns ⊢
    omega

/-! ### What each operation computes -/

theorem compute_add : FusedOp.add.compute m s t = ⟨m + s, true, addFlags m s⟩ := rfl

theorem compute_sub : FusedOp.sub.compute m s t = ⟨m - s, true, subFlags m s⟩ := rfl

theorem compute_setBits : FusedOp.setBits.compute m s t = ⟨m ||| s, true, signZero (m ||| s) false false⟩ := rfl

theorem compute_clearBits :
    FusedOp.clearBits.compute m s t = ⟨m &&& ~~~ s, true, signZero (m &&& ~~~ s) false false⟩ := rfl

theorem compute_flipBits : FusedOp.flipBits.compute m s t = ⟨m ^^^ s, true, signZero (m ^^^ s) false false⟩ := rfl

theorem compute_swap : FusedOp.swap.compute m s t = ⟨s, true, signZero m false false⟩ := rfl

theorem compute_cswap : FusedOp.cswap.compute m s t = ⟨t, m == s, subFlags m s⟩ := rfl

end

/-! ### The old value in DATA -/

/-- An operation that does not write finishes at its read with M (R119). -/
theorem State.operationReadDone_of_not_writes (u : State) (p : Port) {r : OpRecord} {data : Word}
    (h : (r.op.atWidth r.width data r.operand r.newValue).writes = false) :
    u.operationReadDone p r data =
      u.finish p r ⟨.done, r.width.low data, (r.op.atWidth r.width data r.operand r.newValue).flags⟩ :=
  if_neg (by simp [h])

/-- A write-back that completes OK answers with the M and the flags kept since the read (R121). -/
theorem OpRecord.doneAnswer_of_writing {r : OpRecord} {old new : Word} {f : Flags} (h : r.phase = .writing old new f) :
    r.doneAnswer = ⟨.done, old, f⟩ := by
  simp only [OpRecord.doneAnswer, h]

/-! ### The statements -/

/-- Settles O24: the equation of ADD and the rules of its flags; 2^w − 1 is −1, whose sum with M carries unless M is zero. -/
theorem addResultAndFlags : Obligations.AddResultAndFlags := by
  intro w m s t _
  rw [compute_add]
  refine ⟨rfl, BitVec.toNat_add m s, signZero_n .., signZero_z_iff .., addFlags_v_iff m s, addFlags_c_iff m s, ?decrement⟩
  case decrement =>
    rintro rfl
    exact ⟨add_allOnes_eq_sub_one m, addFlags_allOnes_c_iff m⟩

/-- Settles O25: the equation of SUB and the rules of its flags; the signed reading rests on V being the signed overflow. -/
theorem subResultAndFlags : Obligations.SubResultAndFlags := by
  intro w m s t _
  rw [compute_sub]
  exact ⟨rfl, toNat_sub_eq_emod m s, signZero_n .., signZero_z_iff .., subFlags_v_iff m s, subFlags_c_iff m s,
    subFlags_z_iff m s, subFlags_n_ne_v_iff m s⟩

/-- Settles O26: one case per operation from its equation; the answers in DATA are those of the two finishes. -/
theorem bitAndSwapResultsAndFlags : Obligations.BitAndSwapResultsAndFlags := by
  intro w m s t _
  refine ⟨?bitwise, ?swap, ?cswap, ?finishAtRead, ?finishAfterWriteBack⟩
  case bitwise =>
    rintro op (rfl | rfl | rfl)
    · rw [compute_setBits]
      exact ⟨rfl, fun i _ => BitVec.getLsbD_or, signZero_n .., signZero_z_iff .., rfl, rfl⟩
    · rw [compute_clearBits]
      refine ⟨rfl, fun i hi => ?_, signZero_n .., signZero_z_iff .., rfl, rfl⟩
      simp [hi]
    · rw [compute_flipBits]
      exact ⟨rfl, fun i _ => BitVec.getLsbD_xor, signZero_n .., signZero_z_iff .., rfl, rfl⟩
  case swap =>
    rw [compute_swap]
    exact ⟨rfl, rfl, signZero_n .., signZero_z_iff .., rfl, rfl⟩
  case cswap =>
    rw [compute_cswap, compute_sub]
    exact ⟨beq_iff_eq, fun _ => rfl, rfl, subFlags_z_iff m s⟩
  case finishAtRead =>
    intro u p r data _ hread
    exact u.operationReadDone_of_not_writes p hread
  case finishAfterWriteBack =>
    intro r old new f hphase
    exact OpRecord.doneAnswer_of_writing hphase

end Sys2Proof.Machine

/-! PROOF. A completion outside UP (R144): one rule per state of the memory port that discards it. -/

namespace Sys2Proof.Machine

/-! ### A completion by the state of the memory port -/

section
variable {s : State} (status : CompletionStatus) (data : Word)

/-- In SETTLING, before MEM_IDLE is asserted (R143), a completion belongs to no transfer (R144). -/
theorem exec_completion_of_settling (hmem : s.mem.state = .settling) : exec (.completion status data) s = .next s := by
  simp only [exec, execCompletion, hmem]

/-- In DOWN a completion keeps the cause the port went DOWN with (R144). -/
theorem exec_completion_of_down {c : DownCause} (hmem : s.mem.state = .down c) :
    exec (.completion status data) s = .next s := by
  simp only [exec, execCompletion, hmem]

end

/-! ### The statement -/

/-- Settles O35: the memory port is UP, SETTLING or DOWN, and each of the last two discards a completion of either status. -/
theorem completionOutsideUpIsDiscarded : Obligations.CompletionOutsideUpIsDiscarded := by
  intro s status data hnotUp
  cases hmem : s.mem.state with
  | up => exact absurd hmem hnotUp
  | settling => exact exec_completion_of_settling status data hmem
  | down c => exact exec_completion_of_down status data hmem

end Sys2Proof.Machine

/-! PROOF. BREAK-LOCK, SET-RESPONSE-LIMIT and RECOVER-MEMORY at their points of effect (R91, R147, R148, R190..R192): what each
does by the state it finds, then the command with its reply. -/

namespace Sys2Proof.Machine

/-! ### The point of effect of a frame without arguments -/

/-- R176: the command byte runs a command without arguments and enters its reply. -/
theorem State.atCommandByte_of_link {s : State} (run : State → State × Reply) (hlink : s.link = .command) :
    s.atCommandByte run = (run s).1.enterReply (run s).2 := if_pos hlink

/-! ### An entry number as an argument -/

theorem entryArg_of_ge {b : Byte} (h : 8 ≤ b.toNat) : entryArg b = none := dif_neg (Nat.not_lt.mpr h)

theorem entryArg_of_toNat_eq {b : Byte} {e : EntryIx} (h : b.toNat = e.val) : entryArg b = some e := by
  simp [entryArg, h]

/-- R180: an entry number out of range is BAD-ARG, whatever the command does. -/
theorem State.withEntry_of_ge (s : State) {b : Byte} (run : EntryIx → State × Reply) (h : 8 ≤ b.toNat) :
    s.withEntry b run = (s, .just .badArg) := by
  simp only [State.withEntry, entryArg_of_ge h]

theorem State.withEntry_of_toNat_eq (s : State) {b : Byte} {e : EntryIx} (run : EntryIx → State × Reply) (h : b.toNat = e.val) :
    s.withEntry b run = run e := by
  simp only [State.withEntry, entryArg_of_toNat_eq h]

/-! ### BREAK-LOCK -/

theorem State.breakLock_of_held {s : State} {e : EntryIx} {x : Entry} {n : Nat} (he : s.entry e = some x)
    (hwork : x.work = .held n) :
    s.breakLock e = ((s.changeHeld x.owner x.line (.broken .maintenance)).freeEntry e, .just .ok) := by
  obtain ⟨l, owner, work, waiters⟩ := x
  subst hwork
  simp only [State.breakLock, he]

/-- A FREE entry is as BUSY as one in another state than HELD. -/
theorem State.breakLock_of_not_held {s : State} {e : EntryIx} (hnot : ∀ x n, s.entry e = some x → x.work ≠ .held n) :
    s.breakLock e = (s, .just .busy) := by
  unfold State.breakLock
  split
  case h_1 n _ he => exact absurd rfl (hnot _ n he)
  all_goals rfl

section
variable {s : State} {e : EntryIx} {b : Byte} (hlink : s.link = .arguments .breakLock [])
include hlink

/-- BREAK-LOCK has one argument, so its first byte is its point of effect (R176, R190). -/
theorem exec_breakLock :
    exec (.breakLock b) s = .next ((s.withEntry b s.breakLock).1.enterReply (s.withEntry b s.breakLock).2) :=
  congrArg Host.Outcome.next (s.atLastArgument_of_link b _ hlink rfl)

theorem exec_breakLock_of_ge (hb : 8 ≤ b.toNat) : exec (.breakLock b) s = .next (s.replied [0xA2]) := by
  rw [exec_breakLock hlink, s.withEntry_of_ge _ hb, State.enterReply_just]
  rfl

/-- On an entry in range the command does what breaking that entry does. -/
theorem exec_breakLock_of_toNat_eq (hb : b.toNat = e.val) {t : State} {st : Status} (hbreak : s.breakLock e = (t, .just st)) :
    exec (.breakLock b) s = .next (t.replied [st.code]) := by
  rw [exec_breakLock hlink, s.withEntry_of_toNat_eq _ hb, hbreak, State.enterReply_just]

end

/-- Settles O50: the index is judged first, then whether the entry is HELD. -/
theorem breakLockBreaksAHeldEntry : Obligations.BreakLockBreaksAHeldEntry := by
  intro s e b hlink
  refine ⟨exec_breakLock_of_ge hlink, fun hb => ⟨fun x n he hwork => ?held, fun hnot => ?notHeld⟩⟩
  case held => exact exec_breakLock_of_toNat_eq hlink hb (State.breakLock_of_held he hwork)
  case notHeld => exact exec_breakLock_of_toNat_eq hlink hb (State.breakLock_of_not_held hnot)

/-! ### SET-RESPONSE-LIMIT -/

theorem State.setResponseLimit_zero (s : State) : s.setResponseLimit 0 = (s, .just .badArg) := if_pos rfl

theorem State.setResponseLimit_of_outstanding {s : State} {v : Byte} (hv : v ≠ 0) (hout : s.mem.outstanding ≠ []) :
    s.setResponseLimit v = (s, .just .busy) := by
  rw [State.setResponseLimit, if_neg hv, if_pos (by simpa using hout)]

theorem State.setResponseLimit_of_nil {s : State} {v : Byte} (hv : v ≠ 0) (hout : s.mem.outstanding = []) :
    s.setResponseLimit v = (s.setMem { s.mem with limit := v }, .just .ok) := by
  rw [State.setResponseLimit, if_neg hv, if_neg (by simp [hout])]

/-- SET-RESPONSE-LIMIT has one argument, so its first byte is its point of effect (R176, R191). -/
theorem exec_setResponseLimit {s t : State} {v : Byte} {st : Status} (hlink : s.link = .arguments .setResponseLimit [])
    (hset : s.setResponseLimit v = (t, .just st)) : exec (.setResponseLimit v) s = .next (t.replied [st.code]) := by
  have hrun : exec (.setResponseLimit v) s = .next ((s.setResponseLimit v).1.enterReply (s.setResponseLimit v).2) :=
    congrArg Host.Outcome.next (s.atLastArgument_of_link v _ hlink rfl)
  rw [hrun, hset, State.enterReply_just]

/-- Settles O51: the value is judged first, then the outstanding list. -/
theorem setResponseLimitIsJudged : Obligations.SetResponseLimitIsJudged := by
  intro s v hlink
  refine ⟨fun hv => ?badArg, fun hv hout => ?busy, fun hv hout => ?ok⟩
  case badArg => exact exec_setResponseLimit hlink (hv ▸ s.setResponseLimit_zero)
  case busy => exact exec_setResponseLimit hlink (State.setResponseLimit_of_outstanding hv hout)
  case ok => exact exec_setResponseLimit hlink (State.setResponseLimit_of_nil hv hout)

/-! ### RECOVER-MEMORY -/

@[simp] theorem State.setMem_setMem (s : State) (m m' : MemPort) : (s.setMem m).setMem m' = s.setMem m' := rfl

/-- R143: entering SETTLING with MEM_IDLE at a level ends in UP or stays in SETTLING by that level. -/
theorem State.settle_setMem_settling (s : State) :
    (s.setMem { s.mem with state := .settling }).settle =
      s.setMem { s.mem with state := if s.pins.memIdle then .up else .settling } := by
  cases hidle : s.pins.memIdle <;> simp [State.settle, hidle]

theorem State.recoverMemory_of_down {s : State} {c : DownCause} (hmem : s.mem.state = .down c) :
    s.recoverMemory = (s.setMem { s.mem with state := if s.pins.memIdle then .up else .settling }, .just .ok) := by
  simp only [State.recoverMemory, hmem, State.settle_setMem_settling]

theorem State.recoverMemory_of_not_down {s : State} (hmem : s.mem.state = .settling ∨ s.mem.state = .up) :
    s.recoverMemory = (s, .just .wrongState) := by
  obtain hmem | hmem := hmem <;> simp only [State.recoverMemory, hmem]

/-- RECOVER-MEMORY has no argument, so its command byte is its point of effect (R176, R192). -/
theorem exec_recoverMemory {s t : State} {st : Status} (hlink : s.link = .command)
    (hrecover : s.recoverMemory = (t, .just st)) : exec .recoverMemory s = .next (t.replied [st.code]) := by
  have hrun : exec .recoverMemory s = .next (s.recoverMemory.1.enterReply s.recoverMemory.2) :=
    congrArg Host.Outcome.next (State.atCommandByte_of_link _ hlink)
  rw [hrun, hrecover, State.enterReply_just]

theorem exec_recoverMemory_of_down {s : State} {c : DownCause} (hlink : s.link = .command) (hmem : s.mem.state = .down c) :
    exec .recoverMemory s =
      .next ((s.setMem { s.mem with state := if s.pins.memIdle then .up else .settling }).replied [0xA0]) :=
  exec_recoverMemory hlink (State.recoverMemory_of_down hmem)

/-! ### ALERT_N -/

theorem State.memDown_eq_true_iff {s : State} : s.memDown = true ↔ ∃ c, s.mem.state = .down c := by
  unfold State.memDown
  cases s.mem.state <;> simp

/-- R172: with every fault record empty, ALERT_N shows whether the memory port is DOWN. -/
theorem State.alert_of_faults_empty {s : State} (hf : ∀ p, (s.port p).fault = .empty) : s.alert = s.memDown := by
  simp [State.alert, FaultRecord.occupied, hf]

/-- Settles O52: DOWN goes to UP or SETTLING by the level of MEM_IDLE, and with no fault recorded ALERT_N follows the memory port. -/
theorem recoverMemoryLeavesDown : Obligations.RecoverMemoryLeavesDown := by
  intro s hlink
  refine ⟨fun c hmem hidle => ?settling, fun c hmem hidle => ?up, fun hmem => ?wrongState, fun c t hmem hf ht => ?alert⟩
  case settling => simpa [hidle] using exec_recoverMemory_of_down hlink hmem
  case up => simpa [hidle] using exec_recoverMemory_of_down hlink hmem
  case wrongState => exact exec_recoverMemory hlink (State.recoverMemory_of_not_down hmem)
  case alert =>
    rw [exec_recoverMemory_of_down hlink hmem] at ht
    have ht : _ = t := Host.Outcome.next.inj ht
    have hports : ∀ p, (t.port p).fault = .empty := ht ▸ hf
    have hnotDown : ¬ ∃ d, t.mem.state = .down d := by
      rw [← ht]
      cases s.pins.memIdle <;> simp [State.replied]
    rw [State.alert_of_faults_empty hf, State.alert_of_faults_empty hports, Bool.eq_false_iff, Ne, State.memDown_eq_true_iff,
      State.memDown_eq_true_iff]
    exact ⟨⟨c, hmem⟩, hnotDown⟩

end Sys2Proof.Machine

/-! PROOF. The rules of the interlock table's shared operations, said once: a change of one entry, what each result of step 7 promises,
and the induction over the handover walk and the entry-wait list. -/

namespace Sys2Proof.Machine

/-! ### A change of one entry -/

/-- Changes interlock entry `e` where it is not FREE. -/
def State.modEntry (s : State) (e : EntryIx) (g : Entry → Entry) : State :=
  match s.entry e with
  | none => s
  | some x => s.setEntry e (some (g x))

theorem State.setWork_eq_modEntry (s : State) (e : EntryIx) (w : EntryWork) :
    s.setWork e w = s.modEntry e (fun x => { x with work := w }) := rfl

theorem State.setWaiters_eq_modEntry (s : State) (e : EntryIx) (l : List Port) :
    s.setWaiters e l = s.modEntry e (fun x => { x with waiters := l }) := rfl

theorem State.enterUnderLock_eq_modEntry (s : State) (e : EntryIx) :
    s.enterUnderLock e = s.modEntry e (fun x => { x with work := x.work.underLock }) := rfl

theorem State.leaveWaiters_eq_modEntry (s : State) (p : Port) (e : EntryIx) :
    s.leaveWaiters p e = s.modEntry e (fun x => { x with waiters := x.waiters.filter (fun q => q != p) }) := rfl

section
variable (s : State) (e : EntryIx) (g : Entry → Entry)

theorem State.modEntry_of_some {s : State} {e : EntryIx} {x : Entry} (g : Entry → Entry) (hx : s.entry e = some x) :
    s.modEntry e g = s.setEntry e (some (g x)) := by
  simp only [State.modEntry, hx]

theorem State.entry_modEntry (f : EntryIx) :
    (s.modEntry e g).entry f = if f = e then (s.entry f).map g else s.entry f := by
  cases hx : s.entry e with
  | none =>
    by_cases hf : f = e
    · subst hf; simp [State.modEntry, hx]
    · simp [State.modEntry, hx, hf]
  | some x =>
    rw [State.modEntry_of_some g hx, State.entry_setEntry]
    by_cases hf : f = e
    · subst hf; simp [hx]
    · simp [hf]

@[simp] theorem State.ports_modEntry : (s.modEntry e g).ports = s.ports := by
  unfold State.modEntry; split <;> rfl

@[simp] theorem State.port_modEntry (q : Port) : (s.modEntry e g).port q = s.port q := by
  unfold State.modEntry; split <;> rfl

@[simp] theorem State.heldLines_modEntry (q : Port) : (s.modEntry e g).heldLines q = s.heldLines q := by
  unfold State.modEntry; split <;> rfl

@[simp] theorem State.record_modEntry (q : Port) : (s.modEntry e g).record q = s.record q := by
  unfold State.modEntry; split <;> rfl

@[simp] theorem State.handover_modEntry : (s.modEntry e g).table.handover = s.table.handover := by
  unfold State.modEntry; split <;> rfl

@[simp] theorem State.entryWait_modEntry : (s.modEntry e g).table.entryWait = s.table.entryWait := by
  unfold State.modEntry; split <;> rfl

@[simp] theorem State.pins_modEntry : (s.modEntry e g).pins = s.pins := by
  unfold State.modEntry; split <;> rfl

end

/-! ### The response-list entry and the held place of a request that is decided -/

/-- The port of a request with its response-list entry in a state: created at the end by a decision, changed in place otherwise. -/
def Asking.entered (a : Asking) (st : RespState) (x : PortIf) : PortIf :=
  match a.via with
  | .decision => { x with resp := x.resp ++ [⟨a.id, a.request.tag, a.request.kind, st⟩] }
  | .handover | .gift => x.setResp a.id st

theorem Asking.entered_profile (a : Asking) (st : RespState) (x : PortIf) : (a.entered st x).profile = x.profile := by
  unfold Asking.entered
  cases a.via <;> rfl

section
variable (a : Asking) (st : RespState) (s : State)

/-- A request's response-list entry stands in its port, and changes nothing else. -/
theorem Asking.enter_eq_modPort : a.enter st s = s.modPort a.port (a.entered st) := by
  unfold Asking.enter Asking.entered
  cases a.via <;> rfl

@[simp] theorem Asking.table_enter : (a.enter st s).table = s.table := by
  rw [a.enter_eq_modPort]; rfl

@[simp] theorem Asking.ops_enter : (a.enter st s).ops = s.ops := by
  rw [a.enter_eq_modPort]; rfl

@[simp] theorem Asking.entry_enter (e : EntryIx) : (a.enter st s).entry e = s.entry e := by
  simp only [State.entry, Asking.table_enter]

end

/-! ### What a result of step 7 promises -/

/-- What step 7 has found where it gives each of its results: an entry to take is the one at hand, for a free line, and an entry that
the port changes is its own, HELD (R54, R56, R57, R58). -/
def StageResult.Meant (s : State) (p : Port) (c : Checked) (avail : Option EntryIx) : StageResult → Prop
  | .refuse _ | .giveUp | .proceed .plain => True
  | .park e => s.lineEntry c.line = some e
  | .waitEntry => avail = none
  | .unlock e | .proceed (.release e) | .proceed (.underLock e _) => s.heldEntry p c.line = some e
  | .proceed (.acquire e) | .proceed (.fresh e _) => avail = some e ∧ s.lineEntry c.line = none

theorem State.tryPark_meant {s : State} {p : Port} {c : Checked} {avail : Option EntryIx} {e : EntryIx}
    (he : s.lineEntry c.line = some e) : (s.tryPark p e).Meant s p c avail := by
  unfold State.tryPark
  split
  · trivial
  · exact he

/-- Kind by kind, each branch of the interlock stage has tested what its result promises. -/
theorem State.stage_meant (s : State) (p : Port) (c : Checked) (avail : Option EntryIx) :
    (s.stage p c avail).Meant s p c avail := by
  cases hk : c.kind <;> simp only [State.stage, hk]
  case read => unfold State.stageRead; (repeat' split) <;> first | exact tryPark_meant ‹_› | trivial
  case write => unfold State.stageWrite; (repeat' split) <;> first | exact tryPark_meant ‹_› | trivial
  case lockRead => unfold State.stageLockRead; (repeat' split) <;> first | exact tryPark_meant ‹_› | trivial
  case releaseWrite => unfold State.stageReleaseWrite; (repeat' split) <;> trivial
  case unlock => unfold State.stageUnlock; (repeat' split) <;> trivial
  case fused op => unfold State.stageFused; (repeat' split) <;> first | exact tryPark_meant ‹_› | trivial

/-- The entry found for a port's HELD line is the port's (R48). -/
theorem State.heldEntry_spec {s : State} {p : Port} {l : Line} {e : EntryIx} (h : s.heldEntry p l = some e) :
    ∃ x n, s.entry e = some x ∧ x.line = l ∧ x.owner = p ∧ x.work = .held n := by
  have hany := List.find?_some (show allEntries.find? _ = some e from h)
  cases hx : s.entry e with
  | none => simp [hx] at hany
  | some x =>
    simp only [hx, Option.any_some, Bool.and_eq_true, beq_iff_eq] at hany
    obtain ⟨⟨hl, hp⟩, hw⟩ := hany
    split at hw
    case h_1 n hn => exact ⟨x, n, rfl, hl, hp, hn⟩
    case h_2 => cases hw

theorem State.lineEntry_spec {s : State} {l : Line} {e : EntryIx} (h : s.lineEntry l = some e) :
    ∃ x, s.entry e = some x ∧ x.line = l := by
  have hany := List.find?_some (show allEntries.find? _ = some e from h)
  cases hx : s.entry e with
  | none => simp [hx] at hany
  | some x => exact ⟨x, rfl, by simpa [hx] using hany⟩

theorem mem_allEntries (e : EntryIx) : e ∈ allEntries := by
  fin_cases e <;> decide

theorem mem_allPorts (p : Port) : p ∈ allPorts := by
  fin_cases p <;> decide

theorem State.lineEntry_eq_none_iff {s : State} {l : Line} :
    s.lineEntry l = none ↔ ∀ e x, s.entry e = some x → x.line ≠ l := by
  refine ⟨fun h e x hx hl => ?_, lineEntry_eq_none⟩
  have := List.find?_eq_none.mp h e (mem_allEntries e)
  simp [hx, hl] at this

/-- A decision finds no entry to take where a port waits for one, or where no entry is FREE. -/
theorem State.entryToTake_eq_none {s : State} (h : s.entryToTake = none) :
    s.table.entryWait ≠ [] ∨ ∀ e, s.entry e ≠ none := by
  unfold State.entryToTake at h
  split at h
  · refine .inr fun e he => ?_
    have := List.find?_eq_none.mp h e (mem_allEntries e)
    simp [he] at this
  · exact .inl fun hnil => by simp_all

/-! ### Carrying a result out, as an induction -/

/-- A law that the pieces of work done for a request of port `q` keep: a change of the port itself, its profile apart, of its record,
of its held-line list, its place at the end of the handover list or of a waiter list, its taking of an entry for a free line, and the
change of an entry's work that is its own. -/
structure StageLaw (q : Port) (P : State → Prop) : Prop where
  modPort      : ∀ {s} f, (∀ x, (f x).profile = x.profile) → P s → P (s.modPort q f)
  setRecord    : ∀ {s} r, P s → P (s.setRecord q r)
  setHeldLines : ∀ {s} l, P s → P (s.setHeldLines q l)
  setHandover  : ∀ {s} w t, P s → P (s.setHandover (s.table.handover ++ [⟨q, w, t⟩]))
  park         : ∀ {s} e, P s → P (s.setWaiters e (((s.entry e).map Entry.waiters).getD [] ++ [q]))
  takeEntry    : ∀ {s} e l w, s.lineEntry l = none → P s → P (s.takeEntry e l q w)
  changeWork   : ∀ {s} e x (g : EntryWork → EntryWork), s.entry e = some x → x.owner = q → P s →
    P (s.modEntry e (fun y => { y with work := g y.work }))

namespace StageLaw

variable {P : State → Prop} {s : State} {a : Asking}

theorem enter (law : StageLaw a.port P) (st : RespState) (h : P s) : P (a.enter st s) := by
  rw [a.enter_eq_modPort]
  exact law.modPort _ (a.entered_profile st) h

theorem send (law : StageLaw a.port P) (use : TransferUse) (h : P s) : P (a.send use s) := by
  unfold Asking.send
  split
  · exact law.enter _ (law.setHandover _ _ h)
  all_goals exact law.enter _ h

theorem startOperation (law : StageLaw a.port P) (op : FusedOp) (mode : FusedMode) (e : EntryIx) (h : P s) :
    P (a.startOperation op mode e s) := by
  have hstarted := law.enter .inOperation (law.setRecord (some (a.newRecord op mode e)) h)
  unfold Asking.startOperation
  split
  · exact law.setHandover _ _ hstarted
  all_goals exact hstarted

theorem act (law : StageLaw a.port P) {avail : Option EntryIx} (x : Action)
    (hx : (StageResult.proceed x).Meant s a.port a.checked avail) (h : P s) : P (a.act x s) := by
  cases x with
  | plain => exact law.send _ h
  | acquire e => exact law.send _ (law.setHeldLines _ (law.takeEntry e _ _ hx.2 h))
  | fresh e op => exact law.startOperation _ _ _ (law.takeEntry e _ _ hx.2 h)
  | release e =>
    obtain ⟨y, _, hy, _, hp, _⟩ := State.heldEntry_spec hx
    exact law.send _ (law.setHeldLines _ (law.changeWork e y (fun _ => .releasing false) hy hp h))
  | underLock e op =>
    obtain ⟨y, _, hy, _, hp, _⟩ := State.heldEntry_spec hx
    exact law.startOperation _ _ _ (law.changeWork e y EntryWork.underLock hy hp h)

/-- Every result of step 7 but the wait for an entry. -/
theorem carryOut (law : StageLaw a.port P) {avail : Option EntryIx} {r : StageResult} (hr : r.Meant s a.port a.checked avail)
    (hw : r ≠ .waitEntry) (h : P s) : P (a.carryOut r s) := by
  cases r with
  | refuse o => exact law.enter _ h
  | giveUp => exact law.enter _ (law.setHeldLines _ h)
  | unlock e => exact law.enter _ (law.setHeldLines _ h)
  | park e => exact law.enter _ (law.modPort _ (fun _ => rfl) (law.park e h))
  | waitEntry => exact absurd rfl hw
  | proceed x =>
    simp only [Asking.carryOut]
    split
    · exact law.enter _ h
    · exact law.act x hr h

/-- A law that does not mind the entry-wait list either is kept by every result. -/
theorem carryOut_of_setEntryWait (law : StageLaw a.port P) (hwait : ∀ {s} l, P s → P (s.setEntryWait l))
    {avail : Option EntryIx} {r : StageResult} (hr : r.Meant s a.port a.checked avail) (h : P s) : P (a.carryOut r s) := by
  by_cases hw : r = .waitEntry
  · subst hw
    exact law.enter _ (law.modPort _ (fun _ => rfl) (hwait _ h))
  · exact law.carryOut hr hw h

/-- A re-decision has an entry at hand, and so never waits for one (R44). -/
theorem redecide {q : Port} (law : StageLaw q P) (e : EntryIx) (via : Via) (h : P s) : P (s.redecide q e via) := by
  unfold State.redecide
  split
  · exact h
  · rename_i held _
    have hmeant := (s.releaseHeldPlace q).stage_meant q held.checked (some e)
    refine carryOut (a := ⟨q, held.id, held.request, held.checked, via⟩) law hmeant (fun hw => ?_) (law.modPort _ (fun _ => rfl) h)
    rw [hw] at hmeant
    cases hmeant

end StageLaw

/-- What carrying a result out makes of the ports: the request's response-list entry is written, and where the request is kept as the
held place, that too. -/
theorem Asking.ports_carryOut (a : Asking) (r : StageResult) (s : State) : ∃ st f,
    (f = a.entered st ∨ f = fun x => a.entered st { x with held := some ⟨a.request, a.id, a.checked⟩ }) ∧
      (a.carryOut r s).ports = (s.modPort a.port f).ports := by
  have henter : ∀ st t, t.ports = s.ports → (a.enter st t).ports = (s.modPort a.port (a.entered st)).ports := by
    intro st t ht
    simp only [a.enter_eq_modPort, State.modPort, ht]
  have hheld : ∀ st t, t.ports = s.ports → (a.enter st (a.hold t)).ports =
      (s.modPort a.port (fun x => a.entered st { x with held := some ⟨a.request, a.id, a.checked⟩ })).ports := by
    intro st t ht
    rw [a.enter_eq_modPort, Asking.hold, State.modPort_modPort]
    simp only [State.modPort, ht]
  have hsend : ∀ use t, t.ports = s.ports → ∃ st, (a.send use t).ports = (s.modPort a.port (a.entered st)).ports := by
    intro use t ht
    unfold Asking.send
    split
    all_goals exact ⟨_, henter _ _ ht⟩
  have hstart : ∀ op mode e t, t.ports = s.ports →
      ∃ st, (a.startOperation op mode e t).ports = (s.modPort a.port (a.entered st)).ports := by
    intro op mode e t ht
    unfold Asking.startOperation
    split
    all_goals exact ⟨_, henter _ (t.setRecord ..) ht⟩
  cases r with
  | refuse o => exact ⟨_, _, .inl rfl, henter _ s rfl⟩
  | giveUp => exact ⟨_, _, .inl rfl, henter _ (s.leaveHeld ..) rfl⟩
  | unlock e => exact ⟨_, _, .inl rfl, henter _ (s.leaveHeld ..) rfl⟩
  | park e => exact ⟨_, _, .inr rfl, hheld _ _ (State.ports_modEntry ..)⟩
  | waitEntry => exact ⟨_, _, .inr rfl, hheld _ (s.setEntryWait _) rfl⟩
  | proceed x =>
    simp only [Asking.carryOut]
    split
    · exact ⟨_, _, .inl rfl, henter _ s rfl⟩
    · have hact : ∃ st, (a.act x s).ports = (s.modPort a.port (a.entered st)).ports := by
        cases x with
        | plain => exact hsend _ s rfl
        | acquire e => exact hsend _ ((s.takeEntry ..).joinHeld ..) rfl
        | release e => exact hsend _ ((s.setWork ..).changeHeld ..) (State.ports_modEntry ..)
        | fresh e op => exact hstart op _ e (s.takeEntry ..) rfl
        | underLock e op => exact hstart op _ e (s.enterUnderLock e) (State.ports_modEntry ..)
      obtain ⟨st, hst⟩ := hact
      exact ⟨st, _, .inl rfl, hst⟩

/-! ### The walks, as an induction -/

/-- A law that a re-decision keeps, and that does not mind an entry being freed, the entry-wait list being shortened or a waiter list
being written, is kept by a freeing with its whole walk (R68..R72, R76). -/
theorem State.freeEntry_keeps {P : State → Prop}
    (hredecide : ∀ s q e via, via ≠ .decision → P s → P (s.redecide q e via))
    (hwait : ∀ s l, P s → P (s.setEntryWait l)) (hwaiters : ∀ s e l, P s → P (s.setWaiters e l))
    (hfree : ∀ s e, P s → P (s.setEntry e none)) (s : State) (e : EntryIx) (h : P s) : P (s.freeEntry e) := by
  have hgive : ∀ l s, P s → P (giveEntry e l s) := by
    intro l
    induction l with
    | nil => exact fun _ h => h
    | cons q rest ih =>
      intro s h
      have ht := hredecide (s.setEntryWait rest) q e .gift (by decide) (hwait s rest h)
      simp only [giveEntry]
      split
      · exact ih _ ht
      · exact ht
  have hwalk : ∀ l s, P s → P (handoverWalk e l s) := by
    intro l
    induction l with
    | nil => exact fun s h => hgive _ s h
    | cons q rest ih =>
      intro s h
      have ht := hredecide s q e .handover (by decide) h
      simp only [handoverWalk]
      split
      · exact ih _ ht
      · exact hwaiters _ _ _ ht
  unfold State.freeEntry
  split
  · exact h
  · exact hwalk _ _ (hfree s e h)

end Sys2Proof.Machine

/-! PROOF. How the interlock stage, the walks and the teardowns keep the laws of the table: lines distinct (R47), no entry FREE while
a port waits for one (R75), and nothing done for a port that stands on no list (R168). -/

namespace Sys2Proof.Machine

/-! ### What a decision leaves -/

/-- `t` comes from `s` by work of the part that reaches no setting, no pin and no frame, nor the model's own fields. -/
structure OwnWork (s t : State) : Prop where
  regions : t.regions = s.regions
  link    : t.link = s.link
  pins    : t.pins = s.pins
  clock   : t.clock = s.clock
  choices : t.choices = s.choices
  pending : t.pending = s.pending
  limit   : t.mem.limit = s.mem.limit
  pointer : t.mem.pointer = s.mem.pointer
  profile : ∀ p, (t.port p).profile = (s.port p).profile

namespace OwnWork

variable {s t u : State}

theorem refl (s : State) : OwnWork s s := ⟨rfl, rfl, rfl, rfl, rfl, rfl, rfl, rfl, fun _ => rfl⟩

theorem trans (h : OwnWork s t) (k : OwnWork t u) : OwnWork s u :=
  ⟨k.regions.trans h.regions, k.link.trans h.link, k.pins.trans h.pins, k.clock.trans h.clock, k.choices.trans h.choices,
    k.pending.trans h.pending, k.limit.trans h.limit, k.pointer.trans h.pointer, fun p => (k.profile p).trans (h.profile p)⟩

theorem of_eventWork (h : EventWork s t) : OwnWork s t :=
  ⟨h.regions, h.link, h.pins, h.clock, h.choices, h.pending, h.limit, h.pointer, h.profile⟩

theorem modPort (h : OwnWork s t) (p : Port) (f : PortIf → PortIf) (hf : ∀ x, (f x).profile = x.profile) :
    OwnWork s (t.modPort p f) := by
  refine h.trans ⟨rfl, rfl, rfl, rfl, rfl, rfl, rfl, rfl, fun q => ?_⟩
  by_cases hq : q = p
  · subst hq; rw [State.port_modPort_self]; exact hf _
  · rw [State.port_modPort_of_ne _ _ _ _ hq]

theorem tableWork (h : OwnWork s t) (k : TableWork t u) : OwnWork s u := h.trans (of_eventWork (.of k))

theorem stageLaw (s : State) (q : Port) : StageLaw q (OwnWork s) where
  modPort f hf h := h.modPort q f hf
  setRecord _ h := h.tableWork (TableWork.setRecord ..)
  setHeldLines _ h := h.tableWork (TableWork.setHeldLines ..)
  setHandover _ _ h := h.tableWork (TableWork.setHandover ..)
  park _ h := h.tableWork (TableWork.setWaiters ..)
  takeEntry _ _ _ _ h := h.tableWork (TableWork.takeEntry ..)
  changeWork e x g hx _ h := by
    rw [State.modEntry_of_some _ hx]
    exact h.tableWork (TableWork.setEntry ..)

/-- A result of step 7 that is carried out, by a decision too. -/
theorem carryOut (h : OwnWork s t) (a : Asking) {avail : Option EntryIx} {r : StageResult}
    (hr : r.Meant t a.port a.checked avail) : OwnWork s (a.carryOut r t) :=
  (stageLaw s a.port).carryOut_of_setEntryWait (fun _ h => h.tableWork (TableWork.setEntryWait ..)) hr h

end OwnWork

/-! ### Lines distinct (R47) -/

namespace State.LinesDistinct

variable {s : State}

theorem setEntry_none (h : s.LinesDistinct) (e : EntryIx) : (s.setEntry e none).LinesDistinct := by
  intro f g x y hx hy hl
  have hof : ∀ i z, (s.setEntry e none).entry i = some z → s.entry i = some z := fun i z hz => by
    by_cases hi : i = e
    · subst hi; simp at hz
    · simpa [hi] using hz
  exact h f g x y (hof f x hx) (hof g y hy) hl

theorem modEntry (h : s.LinesDistinct) (e : EntryIx) (g : Entry → Entry) (hg : ∀ x, (g x).line = x.line) :
    (s.modEntry e g).LinesDistinct := by
  have hof : ∀ i z, (s.modEntry e g).entry i = some z → ∃ x, s.entry i = some x ∧ x.line = z.line := fun i z hz => by
    rw [entry_modEntry] at hz
    split at hz
    · obtain ⟨x, hx, rfl⟩ := Option.map_eq_some_iff.mp hz
      exact ⟨x, hx, (hg x).symm⟩
    · exact ⟨z, hz, rfl⟩
  intro i j y z hy hz hl
  obtain ⟨y', hy', hyl⟩ := hof i y hy
  obtain ⟨z', hz', hzl⟩ := hof j z hz
  exact h i j y' z' hy' hz' (by rw [hyl, hzl, hl])

/-- Only a free line is taken. -/
theorem takeEntry (h : s.LinesDistinct) (e : EntryIx) {l : Line} (p : Port) (w : EntryWork) (hl : s.lineEntry l = none) :
    (s.takeEntry e l p w).LinesDistinct := by
  have hfree := lineEntry_eq_none_iff.mp hl
  intro f g x y hx hy hxy
  simp only [State.takeEntry, entry_setEntry] at hx hy
  split at hx <;> split at hy
  · rw [‹f = e›, ‹g = e›]
  · cases hx; exact absurd hxy.symm (hfree g y hy)
  · cases hy; exact absurd hxy (hfree f x hx)
  · exact h f g x y hx hy hxy

/-- Entries alone are looked at. -/
theorem congr {t : State} (h : s.LinesDistinct) (ht : t.table.entries = s.table.entries) : t.LinesDistinct := by
  have he : t.entry = s.entry := funext fun i => by simp only [State.entry, ht]
  intro f g x y hx hy
  rw [he] at hx hy
  exact h f g x y hx hy

theorem stageLaw (q : Port) : StageLaw q State.LinesDistinct where
  modPort _ _ h := h
  setRecord _ h := h
  setHeldLines _ h := h
  setHandover _ _ h := h
  park e h := h.modEntry e _ fun _ => rfl
  takeEntry e _ w hl h := h.takeEntry e q w hl
  changeWork e _ _ _ _ h := h.modEntry e _ fun _ => rfl

theorem freeEntry (h : s.LinesDistinct) (e : EntryIx) : (s.freeEntry e).LinesDistinct :=
  State.freeEntry_keeps (P := State.LinesDistinct) (fun _ q e via _ h => (stageLaw q).redecide e via h) (fun _ _ h => h)
    (fun _ e _ h => h.modEntry e _ fun _ => rfl) (fun _ e h => h.setEntry_none e) s e h

end State.LinesDistinct

/-! ### No entry FREE while a port waits for one (R75) -/

/-- `t` comes from `s` by work that fills entries and leaves the entry-wait list: no entry but those FREE already is FREE. -/
structure Filled (s t : State) : Prop where
  entryWait : t.table.entryWait = s.table.entryWait
  taken     : ∀ e, s.entry e ≠ none → t.entry e ≠ none

namespace Filled

variable {s t : State}

theorem refl (s : State) : Filled s s := ⟨rfl, fun _ h => h⟩

theorem modEntry (h : Filled s t) (e : EntryIx) (g : Entry → Entry) : Filled s (t.modEntry e g) := by
  refine ⟨by simpa using h.entryWait, fun f hf => ?_⟩
  have ht := h.taken f hf
  rw [State.entry_modEntry]
  split <;> simpa using ht

theorem takeEntry (h : Filled s t) (e : EntryIx) (l : Line) (p : Port) (w : EntryWork) : Filled s (t.takeEntry e l p w) := by
  refine ⟨h.entryWait, fun f hf => ?_⟩
  rw [State.takeEntry, State.entry_setEntry]
  split
  · simp
  · exact h.taken f hf

/-- Of the results of step 7 only the wait for an entry writes the entry-wait list, and none frees an entry. -/
theorem stageLaw (s : State) (q : Port) : StageLaw q (Filled s) where
  modPort _ _ h := ⟨h.entryWait, h.taken⟩
  setRecord _ h := ⟨h.entryWait, h.taken⟩
  setHeldLines _ h := ⟨h.entryWait, h.taken⟩
  setHandover _ _ h := ⟨h.entryWait, h.taken⟩
  park e h := h.modEntry e _
  takeEntry e l w _ h := h.takeEntry e l q w
  changeWork e _ _ _ _ h := h.modEntry e _

theorem redecide (s : State) (q : Port) (e : EntryIx) (via : Via) : Filled s (s.redecide q e via) :=
  (stageLaw s q).redecide e via (refl s)

end Filled

namespace State.NoneFreeWhileWaiting

variable {s t : State}

theorem of_filled (h : s.NoneFreeWhileWaiting) (k : Filled s t) : t.NoneFreeWhileWaiting :=
  fun hw e => k.taken e (h (k.entryWait ▸ hw) e)

/-- An entry that stays FREE has gone down the whole entry-wait list. -/
theorem giveEntry (e : EntryIx) (l : List Port) (s : State) (hl : s.table.entryWait = l)
    (h : l ≠ [] → ∀ f ≠ e, s.entry f ≠ none) : (giveEntry e l s).NoneFreeWhileWaiting := by
  induction l generalizing s with
  | nil => exact fun hw => absurd hl hw
  | cons q rest ih =>
    have hf : Filled (s.setEntryWait rest) ((s.setEntryWait rest).redecide q e .gift) := Filled.redecide ..
    have hothers : ∀ f ≠ e, ((s.setEntryWait rest).redecide q e .gift).entry f ≠ none :=
      fun f hfe => hf.taken f (h (List.cons_ne_nil q rest) f hfe)
    simp only [Machine.giveEntry]
    split
    case h_1 => exact ih _ hf.entryWait fun _ => hothers
    case h_2 x hx =>
      intro _ f
      by_cases hfe : f = e
      · rw [hfe, hx]; simp
      · exact hothers f hfe

theorem handoverWalk (e : EntryIx) (l : List Port) (s : State) (h : s.table.entryWait ≠ [] → ∀ f ≠ e, s.entry f ≠ none) :
    (handoverWalk e l s).NoneFreeWhileWaiting := by
  induction l generalizing s with
  | nil => exact giveEntry e _ s rfl h
  | cons q rest ih =>
    have hf : Filled s (s.redecide q e .handover) := Filled.redecide ..
    have hothers : (s.redecide q e .handover).table.entryWait ≠ [] →
        ∀ f ≠ e, (s.redecide q e .handover).entry f ≠ none := fun hw f hfe => hf.taken f (h (hf.entryWait ▸ hw) f hfe)
    simp only [Machine.handoverWalk]
    split
    case h_1 => exact ih _ hothers
    case h_2 x hx =>
      refine of_filled (fun hw f => ?_) ((Filled.refl _).modEntry ..)
      by_cases hfe : f = e
      · rw [hfe, hx]; simp
      · exact hothers hw f hfe

theorem freeEntry (h : s.NoneFreeWhileWaiting) (e : EntryIx) : (s.freeEntry e).NoneFreeWhileWaiting := by
  unfold State.freeEntry
  split
  · exact h
  · refine handoverWalk e _ _ fun hw f hfe => ?_
    rw [State.entry_setEntry_of_ne _ _ _ _ hfe]
    exact h hw f

/-- A shorter entry-wait list asks no more of the entries. -/
theorem setEntryWait (h : s.NoneFreeWhileWaiting) {l : List Port} (hl : s.table.entryWait = [] → l = []) :
    (s.setEntryWait l).NoneFreeWhileWaiting :=
  fun hw e => h (fun hnil => hw (hl hnil)) e

end State.NoneFreeWhileWaiting

/-! ### A port that stands on no list (R168) -/

/-- Port `p` stands on no waiter list and not on the entry-wait list, and has nothing on the handover list. -/
structure State.OffLists (s : State) (p : Port) : Prop where
  waiters   : ∀ e x, s.entry e = some x → p ∉ x.waiters
  entryWait : p ∉ s.table.entryWait
  handover  : ∀ i ∈ s.table.handover, i.port ≠ p

theorem State.absent_iff {s : State} {p : Port} : s.Absent p ↔ s.OffLists p ∧ s.heldLines p = [] :=
  ⟨fun ⟨hw, he, hh, hl⟩ => ⟨⟨hw, he, hh⟩, hl⟩, fun ⟨⟨hw, he, hh⟩, hl⟩ => ⟨hw, he, hh, hl⟩⟩

/-- `t` comes from `s` by work that is done for other ports than `p`: the port, its record and its held lines stay, it joins no list,
and an entry that names it as its owner is as it was. -/
structure Spares (p : Port) (s t : State) : Prop where
  port      : t.port p = s.port p
  record    : t.record p = s.record p
  heldLines : t.heldLines p = s.heldLines p
  entryWait : p ∈ t.table.entryWait → p ∈ s.table.entryWait
  handover  : ∀ i ∈ t.table.handover, i.port = p → i ∈ s.table.handover
  waiters   : ∀ e y, t.entry e = some y → p ∈ y.waiters → ∃ x, s.entry e = some x ∧ p ∈ x.waiters
  owned     : ∀ e y, t.entry e = some y → y.owner = p → ∃ x, s.entry e = some x ∧ x.owner = p ∧ x.work = y.work

namespace Spares

variable {p : Port} {s t u : State}

theorem refl (p : Port) (s : State) : Spares p s s :=
  ⟨rfl, rfl, rfl, id, fun _ h _ => h, fun _ y hy h => ⟨y, hy, h⟩, fun _ y hy h => ⟨y, hy, h, rfl⟩⟩

theorem trans (h : Spares p s t) (k : Spares p t u) : Spares p s u where
  port := k.port.trans h.port
  record := k.record.trans h.record
  heldLines := k.heldLines.trans h.heldLines
  entryWait hp := h.entryWait (k.entryWait hp)
  handover i hi hp := h.handover i (k.handover i hi hp) hp
  waiters e z hz hp := by
    obtain ⟨y, hy, hpy⟩ := k.waiters e z hz hp
    exact h.waiters e y hy hpy
  owned e z hz hp := by
    obtain ⟨y, hy, hpy, hyz⟩ := k.owned e z hz hp
    obtain ⟨x, hx, hpx, hxy⟩ := h.owned e y hy hpy
    exact ⟨x, hx, hpx, hxy.trans hyz⟩

theorem offLists (h : Spares p s t) (hs : s.OffLists p) : t.OffLists p where
  waiters e y hy hp := by
    obtain ⟨x, hx, hpx⟩ := h.waiters e y hy hp
    exact hs.waiters e x hx hpx
  entryWait hp := hs.entryWait (h.entryWait hp)
  handover i hi hp := hs.handover i (h.handover i hi hp) hp

theorem absent (h : Spares p s t) (hs : s.Absent p) : t.Absent p := by
  obtain ⟨hoff, hl⟩ := State.absent_iff.mp hs
  exact State.absent_iff.mpr ⟨h.offLists hoff, h.heldLines.trans hl⟩

/-- A change of one entry that lets `p` join no waiter list, and keeps the work of an entry of `p`. -/
theorem modEntry (h : Spares p s t) (e : EntryIx) (g : Entry → Entry)
    (hw : ∀ x, t.entry e = some x → p ∈ (g x).waiters → p ∈ x.waiters)
    (ho : ∀ x, t.entry e = some x → (g x).owner = p → x.owner = p ∧ (g x).work = x.work) : Spares p s (t.modEntry e g) := by
  refine h.trans ⟨by simp, by simp, by simp, by simp, fun i hi _ => by simpa using hi, fun f y hy hp => ?_, fun f y hy hp => ?_⟩
  all_goals
    rw [State.entry_modEntry] at hy
    split at hy
    case isFalse => first | exact ⟨y, hy, hp⟩ | exact ⟨y, hy, hp, rfl⟩
    case isTrue hfe =>
      subst hfe
      obtain ⟨x, hx, rfl⟩ := Option.map_eq_some_iff.mp hy
      first | exact ⟨x, hx, hw x hx hp⟩ | exact ⟨x, hx, (ho x hx hp).1, (ho x hx hp).2.symm⟩

/-- An entry written without naming `p`. -/
theorem setEntry (h : Spares p s t) (e : EntryIx) (x : Option Entry)
    (hx : ∀ y, x = some y → y.owner ≠ p ∧ p ∉ y.waiters) : Spares p s (t.setEntry e x) := by
  refine h.trans ⟨rfl, rfl, rfl, id, fun _ h _ => h, fun f y hy hp => ?_, fun f y hy hp => ?_⟩
  all_goals
    rw [State.entry_setEntry] at hy
    split at hy
  · exact absurd hp (hx y hy).2
  · exact ⟨y, hy, hp⟩
  · exact absurd hp (hx y hy).1
  · exact ⟨y, hy, hp, rfl⟩

theorem setEntryWait (h : Spares p s t) (l : List Port) (hl : p ∈ l → p ∈ t.table.entryWait) : Spares p s (t.setEntryWait l) :=
  h.trans ⟨rfl, rfl, rfl, hl, fun _ h _ => h, fun _ y hy h => ⟨y, hy, h⟩, fun _ y hy h => ⟨y, hy, h, rfl⟩⟩

/-- What is done for another port spares `p`. -/
theorem stageLaw (s : State) {q : Port} (hq : p ≠ q) : StageLaw q (Spares p s) where
  modPort f _ h := h.trans ⟨State.port_modPort_of_ne _ _ _ _ hq, rfl, rfl, id, fun _ h _ => h, fun _ y hy h => ⟨y, hy, h⟩,
    fun _ y hy h => ⟨y, hy, h, rfl⟩⟩
  setRecord r h := h.trans ⟨rfl, State.record_setRecord_of_ne _ _ _ _ hq, rfl, id, fun _ h _ => h, fun _ y hy h => ⟨y, hy, h⟩,
    fun _ y hy h => ⟨y, hy, h, rfl⟩⟩
  setHeldLines l h := h.trans ⟨rfl, rfl, State.heldLines_setHeldLines_of_ne _ _ _ _ hq, id, fun _ h _ => h,
    fun _ y hy h => ⟨y, hy, h⟩, fun _ y hy h => ⟨y, hy, h, rfl⟩⟩
  setHandover w t h := h.trans ⟨rfl, rfl, rfl, id, fun i hi hp => by
    obtain hi | hi := List.mem_append.mp hi
    · exact hi
    · cases List.mem_singleton.mp hi
      exact absurd hp.symm hq, fun _ y hy h => ⟨y, hy, h⟩, fun _ y hy h => ⟨y, hy, h, rfl⟩⟩
  park e h := h.modEntry e _ (fun x hx hp => by simpa [hx, hq] using hp) fun _ _ hp => ⟨hp, rfl⟩
  takeEntry e l w _ h := h.setEntry e _ fun y hy => by cases hy; exact ⟨Ne.symm hq, List.not_mem_nil⟩
  changeWork e x g hx hp h := h.modEntry e _ (fun _ _ hp => hp) fun y hy hyp => by
    cases hx.symm.trans hy
    exact absurd (hyp.symm.trans hp) hq

theorem redecide (s : State) {q : Port} (hq : p ≠ q) (e : EntryIx) (via : Via) : Spares p s (s.redecide q e via) :=
  (stageLaw s hq).redecide e via (refl p s)

/-- Any result of step 7, the wait for an entry too. -/
theorem carryOut {a : Asking} (hq : p ≠ a.port) {avail : Option EntryIx} {r : StageResult}
    (hr : r.Meant s a.port a.checked avail) : Spares p s (a.carryOut r s) := by
  by_cases hw : r = .waitEntry
  · subst hw
    have hwait := (refl p s).setEntryWait (s.table.entryWait ++ [a.port]) fun h => by simpa [hq] using h
    exact (stageLaw s hq).enter .entryWait ((stageLaw s hq).modPort _ (fun _ => rfl) hwait)
  · exact (stageLaw s hq).carryOut hr hw (refl p s)

theorem giveEntry (e : EntryIx) (l : List Port) (s : State) (hl : p ∉ l) : Spares p s (giveEntry e l s) := by
  induction l generalizing s with
  | nil => exact refl p s
  | cons q rest ih =>
    obtain ⟨hq, hrest⟩ := not_or.mp (List.mem_cons.not.mp hl)
    have hstep : Spares p s ((s.setEntryWait rest).redecide q e .gift) :=
      ((refl p s).setEntryWait rest fun h => absurd h hrest).trans (redecide _ hq e .gift)
    simp only [Machine.giveEntry]
    split
    · exact hstep.trans (ih _ hrest)
    · exact hstep

theorem handoverWalk (e : EntryIx) (l : List Port) (s : State) (hl : p ∉ l) (hw : p ∉ s.table.entryWait) :
    Spares p s (handoverWalk e l s) := by
  induction l generalizing s with
  | nil => exact giveEntry e _ s hw
  | cons q rest ih =>
    obtain ⟨hq, hrest⟩ := not_or.mp (List.mem_cons.not.mp hl)
    have hstep : Spares p s (s.redecide q e .handover) := redecide s hq e .handover
    simp only [Machine.handoverWalk]
    split
    · exact hstep.trans (ih _ hrest fun h => hw (hstep.entryWait h))
    · exact hstep.modEntry e _ (fun _ _ h => absurd h hrest) fun _ _ h => ⟨h, rfl⟩

/-- A freeing, from its entry FREE on, does nothing for a port that stands on no list. -/
theorem freeEntry_of_some (hs : s.OffLists p) {e : EntryIx} {x : Entry} (hx : s.entry e = some x) :
    Spares p (s.setEntry e none) (s.freeEntry e) := by
  simp only [State.freeEntry, hx]
  exact handoverWalk e _ _ (hs.waiters e x hx) hs.entryWait

theorem freeEntry (hs : s.OffLists p) (e : EntryIx) : Spares p s (s.freeEntry e) := by
  cases hx : s.entry e with
  | none => simpa only [State.freeEntry, hx] using refl p s
  | some x => exact ((refl p s).setEntry e none nofun).trans (freeEntry_of_some hs hx)

end Spares

end Sys2Proof.Machine

/-! PROOF. The induction over an event and over a command: a law of the ports, the interlock table and the levels of PRST_N that the
pieces of an event keep is kept by every completion, expiry, fence and passage to DOWN, and with a few rules more by every command and
every step. -/

namespace Sys2Proof.Machine

/-! ### What work for a port leaves of it -/

/-- `y` is the port interface `x` with its response list's states changed in place and, it may be, its held place released. -/
structure PortIf.Keeps (x y : PortIf) : Prop where
  state  : y.state = x.state
  queue  : y.queue = x.queue
  fault  : y.fault = x.fault
  length : y.resp.length = x.resp.length
  held   : y.held.isSome = true → x.held.isSome = true

namespace PortIf.Keeps

theorem setResp (x : PortIf) (id : Nat) (st : RespState) : x.Keeps (x.setResp id st) :=
  ⟨rfl, rfl, rfl, List.length_map _, fun h => h⟩

/-- Entries of the response list change state in place. -/
theorem mapResp (x : PortIf) (f : RespEntry → RespEntry) : x.Keeps { x with resp := x.resp.map f } :=
  ⟨rfl, rfl, rfl, List.length_map _, fun h => h⟩

/-- The same, with the held place released. -/
theorem mapResp_release (x : PortIf) (f : RespEntry → RespEntry) : x.Keeps { x with held := none, resp := x.resp.map f } :=
  ⟨rfl, rfl, rfl, List.length_map _, fun h => nomatch h⟩

/-- A port keeps at most the held place it had. -/
theorem inbound_le {x y : PortIf} (h : x.Keeps y) : y.inbound ≤ x.inbound := by
  have hheld := h.held
  simp only [PortIf.inbound, h.queue]
  split <;> split <;> simp_all

end PortIf.Keeps

/-- A freeing with its walk changes each port only as its work goes on: a re-decision releases a held place or writes it again. -/
theorem State.freeEntry_keeps_port (s : State) (e : EntryIx) (p : Port) : (s.port p).Keeps ((s.freeEntry e).port p) := by
  have hwork := TableWork.freeEntry s e
  refine ⟨hwork.state p, hwork.queue p, hwork.fault p, hwork.length p, ?held⟩
  case held =>
    refine State.freeEntry_keeps (P := fun t => (t.port p).held.isSome = true → (s.port p).held.isSome = true)
      (fun t q e via _ h => ?redecide) (fun _ _ h => h) (fun t e l h => ?setWaiters) (fun _ _ h => h) s e id
    case setWaiters => rwa [State.setWaiters_eq_modEntry, State.port_modEntry]
    case redecide =>
      by_cases hp : p = q
      · subst hp
        cases hheld : (t.port p).held with
        | none => simpa only [State.redecide, hheld] using h
        | some place => exact fun _ => h (by rw [hheld]; rfl)
      · rwa [(Spares.redecide t hp e via).port]

/-! ### The induction over an event -/

/-- A law of the state and of the ports that an event has fenced so far, kept by the pieces of an event. -/
structure EventLaw (P : List Port → State → Prop) : Prop where
  congr        : ∀ {l s t}, t.ports = s.ports → t.table = s.table → t.pins.prst = s.pins.prst → P l s → P l t
  modPort      : ∀ {l s} p f, (s.port p).Keeps (f (s.port p)) → P l s → P l (s.modPort p f)
  modEntry     : ∀ {l s} e g, (∀ x, (g x).line = x.line) → (∀ x, (g x).waiters ⊆ x.waiters) → P l s → P l (s.modEntry e g)
  setEntryWait : ∀ {l s k}, k ⊆ s.table.entryWait → P l s → P l (s.setEntryWait k)
  setHandover  : ∀ {l s k}, k ⊆ s.table.handover → P l s → P l (s.setHandover k)
  setHeldLines : ∀ {l s} p k, (s.heldLines p = [] → k = []) → P l s → P l (s.setHeldLines p k)
  freeEntry    : ∀ {l s} e, P l s → P l (s.freeEntry e)
  report       : ∀ {l s} p r, P l s → P (l ++ (s.report p r).fenced) (s.report p r).state

/-- What an event leaves meets the law, with the ports it fenced joined to those fenced before. -/
def After.Meets (P : List Port → State → Prop) (l : List Port) (a : After) : Prop := P (l ++ a.fenced) a.state

namespace EventLaw

variable {P : List Port → State → Prop} {l : List Port} {s : State} {a : After}

theorem of (h : P l s) : (After.of s).Meets P l := by
  simpa only [After.Meets, After.of, List.append_nil] using h

theorem andThen {f : State → After} (h : a.Meets P l) (hf : ∀ l s, P l s → (f s).Meets P l) : (a.andThen f).Meets P l := by
  have hmeets := hf _ _ h
  rwa [After.Meets, List.append_assoc] at hmeets

section
variable (law : EventLaw P)
include law

theorem setMem (m : MemPort) (h : P l s) : P l (s.setMem m) := law.congr (s := s) rfl rfl rfl h

theorem setWriteBack (k : List WriteBackItem) (h : P l s) : P l (s.setWriteBack k) := law.congr (s := s) rfl rfl rfl h

theorem setRecord (p : Port) (r : Option OpRecord) (h : P l s) : P l (s.setRecord p r) := law.congr (s := s) rfl rfl rfl h

theorem setResp (p : Port) (id : Nat) (st : RespState) (h : P l s) : P l (s.setResp p id st) :=
  law.modPort p _ (PortIf.Keeps.setResp _ id st) h

theorem answer (p : Port) (id : Nat) (x : Answer) (h : P l s) : P l (s.answer p id x) := law.setResp p id _ h

theorem setWork (e : EntryIx) (w : EntryWork) (h : P l s) : P l (s.setWork e w) :=
  law.modEntry e _ (fun _ => rfl) (fun _ => List.Subset.refl _) h

theorem changeHeld (p : Port) (x : Line) (st : HeldState) (h : P l s) : P l (s.changeHeld p x st) :=
  law.setHeldLines p _ (fun hnil => by rw [hnil]; rfl) h

theorem leaveHeld (p : Port) (x : Line) (h : P l s) : P l (s.leaveHeld p x) :=
  law.setHeldLines p _ (fun hnil => by rw [hnil]; rfl) h

/-! #### Expiry and the finish of an operation -/

theorem expire (e : EntryIx) (h : P l s) : (s.expire e).Meets P l := by
  unfold State.expire
  split
  · exact of h
  · exact law.report _ _ (law.freeEntry e (law.changeHeld _ _ _ h))

theorem releaseOperation (e : EntryIx) (h : P l s) : (s.releaseOperation e).Meets P l := by
  unfold State.releaseOperation
  split
  · exact of (law.setWork e _ h)
  · exact law.expire e (law.setWork e _ h)
  · exact of (law.freeEntry e h)
  · exact of (law.freeEntry e h)
  all_goals exact of h

theorem finish (p : Port) (r : OpRecord) (x : Answer) (h : P l s) : (s.finish p r x).Meets P l :=
  law.releaseOperation _ (law.answer p _ x (law.setRecord p none h))

/-! #### A transfer handed to its origin -/

theorem acquireBack (p : Port) (id : Nat) (e : EntryIx) (t : Transfer) (b : Brought) (h : P l s) :
    P l (s.acquireBack p id e t b) := by
  unfold State.acquireBack
  split
  · exact law.answer p id _ h
  · split
    · exact law.freeEntry e (law.answer p id _ h)
    · split
      · exact law.answer p id _ (law.changeHeld p _ _ (law.setWork e _ h))
      · exact law.freeEntry e (law.answer p id _ (law.leaveHeld p _ h))

theorem releaseBack (p : Port) (id : Nat) (e : EntryIx) (b : Brought) (h : P l s) : P l (s.releaseBack p id e b) := by
  unfold State.releaseBack
  split
  · exact law.answer p id _ h
  · split
    · exact law.freeEntry e (law.answer p id _ h)
    · exact law.freeEntry e (law.answer p id _ (law.leaveHeld p _ h))

theorem operationReadBack (p : Port) (b : Brought) (h : P l s) : (s.operationReadBack p b).Meets P l := by
  unfold State.operationReadBack
  split
  · exact of h
  · split
    · simp only [State.operationReadDone]
      split
      · exact of (law.setWriteBack _ (law.setRecord p _ h))
      · exact law.finish p _ _ h
    · exact law.finish p _ _ h

theorem writeBackBack (p : Port) (b : Brought) (h : P l s) : (s.writeBackBack p b).Meets P l := by
  unfold State.writeBackBack
  split
  · exact of h
  · split <;> exact law.finish p _ _ h

theorem hand (i : OutItem) (b : Brought) (h : P l s) : (s.hand i b).Meets P l := by
  unfold State.hand
  split
  · exact of (law.answer _ _ _ h)
  · exact of (law.acquireBack _ _ _ _ _ h)
  · exact of (law.releaseBack _ _ _ _ h)
  · exact law.operationReadBack _ _ h
  · exact law.writeBackBack _ _ h

theorem failAll (k : List OutItem) (a : After) (h : a.Meets P l) : (failAll a k).Meets P l := by
  induction k generalizing a with
  | nil => exact h
  | cons i k ih => exact ih _ (andThen h fun _ _ hs => law.hand i .failed hs)

theorem goDown (c : DownCause) (h : P l s) : (s.goDown c).Meets P l :=
  law.failAll _ _ (of (law.setMem _ h))

theorem moveLimit (h : P l s) : s.moveLimit.Meets P l := by
  unfold State.moveLimit
  split
  · exact law.goDown _ h
  · exact of h

theorem completeFront (b : Brought) (h : P l s) : (s.completeFront b).Meets P l := by
  unfold State.completeFront
  split
  · exact law.goDown _ h
  · split
    · exact andThen (law.hand _ b (law.setMem _ h)) fun _ _ hs => law.moveLimit hs
    · exact law.goDown _ h

/-! #### A teardown -/

theorem leaveLists (p : Port) (h : P l s) : P l (s.leaveLists p) := by
  have hfold := List.foldlRecOn (motive := fun t => t.table.entryWait = s.table.entryWait ∧ P l t) allEntries
    (fun t e => t.leaveWaiters p e) ⟨rfl, h⟩ fun t ⟨hw, ht⟩ e _ =>
      ⟨(State.entryWait_modEntry ..).trans hw, law.modEntry e _ (fun _ => rfl) (fun x => List.filter_subset_self x.waiters) ht⟩
  obtain ⟨hw, ht⟩ := hfold
  refine law.setEntryWait ?_ ht
  rw [hw]
  exact List.filter_subset_self _

theorem teardownEntry (p : Port) (e : EntryIx) (h : P l s) : P l (State.teardownEntry p s e) := by
  unfold State.teardownEntry
  split
  · exact h
  · split
    · split
      · exact law.freeEntry e h
      · split
        · exact law.setWork e _ h
        · exact law.freeEntry e h
      · split
        · exact law.setWork e _ h
        · exact law.freeEntry e h
      · split
        · unfold State.detachRecord
          split
          · exact law.setWork e _ h
          · exact law.setRecord p _ (law.setWork e _ h)
        · exact law.freeEntry e h
      · split
        · exact h
        · exact law.freeEntry e h
      all_goals exact h
    · exact h

theorem teardownOperation (p : Port) (h : P l s) : P l (s.teardownOperation p) := by
  unfold State.teardownOperation
  split
  · exact h
  · split
    · exact law.setResp p _ _ (law.setRecord p none h)
    · exact h

theorem teardownWaiting (p : Port) (h : P l s) : P l (s.teardownWaiting p) := by
  unfold State.teardownWaiting
  exact law.modPort p _ (PortIf.Keeps.mapResp_release _ _) (law.leaveLists p h)

theorem teardownTransfers (p : Port) (h : P l s) : P l (s.teardownTransfers p) := by
  unfold State.teardownTransfers
  exact law.modPort p _ (PortIf.Keeps.mapResp _ _) (law.setHandover (List.filter_subset_self _) h)

theorem teardown (p : Port) (h : P l s) : P l (s.teardown p) := by
  have hstages := law.teardownOperation p (law.teardownTransfers p (law.teardownWaiting p h))
  have hentries : P l (allEntries.foldl (State.teardownEntry p) _) :=
    List.foldlRecOn allEntries _ hstages fun _ ht e _ => law.teardownEntry p e ht
  exact law.setHeldLines p [] (fun _ => rfl) hentries

/-- The fences that follow an event keep the law. -/
theorem settled (h : a.Meets P l) : P (l ++ a.fenced) a.settled :=
  List.foldlRecOn (motive := P (l ++ a.fenced)) a.fenced _ h fun _ ht p _ => law.teardown p ht

end

end EventLaw

/-! ### The induction over a step -/

/-- A step is a command from the queue, a due event, or one quantum of time: a law that these keep, and that does not see the queue
and the choice counter, is kept by every step. -/
theorem step_keeps {P : State → Prop} (htick : ∀ s, P s → P s.tick)
    (hqueue : ∀ s n l, P s → P { s with choices := n, pending := l })
    (hexec : ∀ c s t, exec c s = .next t → P s → P t) {s t : State} (hstep : step s = .next t) (h : P s) : P t := by
  unfold step at hstep
  split at hstep
  · unfold State.idle at hstep
    split at hstep
    · obtain rfl := Host.Outcome.next.inj hstep
      exact htick s h
    · exact hexec _ _ _ hstep h
    · split at hstep
      · obtain rfl := Host.Outcome.next.inj hstep
        exact htick s h
      · exact hexec _ _ _ hstep (hqueue s _ s.pending h)
  · exact hexec _ _ _ hstep (hqueue s s.choices _ h)

/-! ### What a judged argument leaves (R180) -/

section
variable {P : State → Prop} {s : State} (b : Byte)

theorem State.withPort_keeps {run : Port → State × Reply} (hrun : ∀ p, P (run p).1) (h : P s) : P (s.withPort b run).1 := by
  unfold State.withPort
  split
  · exact h
  · exact hrun _

theorem State.withEntry_keeps {run : EntryIx → State × Reply} (hrun : ∀ e, P (run e).1) (h : P s) : P (s.withEntry b run).1 := by
  unfold State.withEntry
  split
  · exact h
  · exact hrun _

theorem State.withRegion_keeps {run : RegionIx → State × Reply} (hrun : ∀ g, P (run g).1) (h : P s) :
    P (s.withRegion b run).1 := by
  unfold State.withRegion
  split
  · exact h
  · exact hrun _

/-- A command at its point of effect, for a law that does not see the reply (R176, R177). -/
theorem State.atLastArgument_keeps (c : MaintCommand) {run : List Byte → State → State × Reply}
    (hreply : ∀ t r, P t → P (t.enterReply r)) (hrun : ∀ args, P (run args s).1) (h : P s) : P (s.atLastArgument c b run) := by
  unfold State.atLastArgument
  split
  · exact h
  · exact hreply _ _ (hrun _)

theorem State.atCommandByte_keeps {run : State → State × Reply} (hreply : ∀ t r, P t → P (t.enterReply r)) (hrun : P (run s).1)
    (h : P s) : P (s.atCommandByte run) := by
  unfold State.atCommandByte
  split
  · exact hreply _ _ hrun
  · exact h

end

/-! ### The induction over a command -/

/-- A law that the pieces of an event keep, that the fences after an event make whole again, and that the commands which are no events
keep: then every command keeps it. `fun _ => Q` is the law of a predicate that does not mind which ports an event fenced. -/
structure CommandLaw (P : List Port → State → Prop) : Prop extends EventLaw P where
  fenced        : ∀ {a : After}, a.Meets P [] → P [] a.settled
  acceptance    : ∀ {s p} r, (s.port p).ready = true → P [] s → P [] (s.modPort p (fun x => { x with queue := x.queue ++ [r] }))
  delivery      : ∀ {s} p, P [] s → P [] (s.modPort p (fun x => { x with resp := x.resp.tail }))
  refused       : ∀ {s p r rest} o, s.decides p = true → (s.port p).queue = r :: rest → P [] s →
    P [] ((s.takeHead p).enterRefused p (s.port p).nextId r o)
  decided       : ∀ {s p r rest} c, s.decides p = true → (s.port p).state = .active → (s.port p).queue = r :: rest → P [] s →
    P [] ((asked s p r c).carryOut ((s.takeHead p).stage p c (s.takeHead p).entryToTake) (s.takeHead p))
  reset         : ∀ pins wire clock choices pending, P [] (State.resetWith pins wire clock choices pending)
  resetDrop     : ∀ {s} p, P [] s → P [] ((s.setPrst p true).drop p)
  resetRelease  : ∀ {s} p, P [] s → P [] ((s.setPrst p false).modPort p PortIf.released)
  acceptProfile : ∀ {s p} f, (s.port p).state ≠ .active → (s.port p).state ≠ .fenced → P [] s → P [] (s.acceptProfile p f)
  pause         : ∀ {s p}, (s.port p).state = .active → P [] s →
    P [] ((s.modPort p (fun x => { x with state := .paused })).withdraw p)
  resume        : ∀ {s p}, (s.port p).state = .paused → P [] s → P [] (s.modPort p (fun x => { x with state := .active }))
  acknowledge   : ∀ {s p}, (s.port p).fault.occupied = true → P [] s → P [] (s.modPort p PortIf.acknowledged)

namespace CommandLaw

variable {P : List Port → State → Prop} {s : State}

section
variable (law : CommandLaw P)
include law

/-! #### Decisions and grants -/

theorem reportOutcome (p : Port) (r : Request) (o : OutcomeCode) (h : P [] s) : (s.reportOutcome p r o).Meets P [] := by
  unfold State.reportOutcome
  split
  · exact EventLaw.of h
  · exact law.report _ _ h

theorem decideHead {p : Port} {r : Request} {rest : List Request} (hd : s.decides p = true)
    (hq : (s.port p).queue = r :: rest) (h : P [] s) : (s.decideHead p r).Meets P [] := by
  unfold State.decideHead
  split
  case h_1 o _ => exact law.reportOutcome p r o (law.refused o hd hq h)
  case h_2 c hc =>
    have hactive : (s.port p).state = .active := by
      have hfenced : (s.port p).state ≠ .fenced := fun hf => by simp [State.headCheck, hf] at hc
      simp only [State.decides, Bool.and_eq_true, Bool.or_eq_true, beq_iff_eq] at hd
      simp_all
    have hcarried := law.decided c hd hactive hq h
    simp only [State.decideStage]
    cases hx : (s.takeHead p).stage p c (s.takeHead p).entryToTake
    all_goals rw [hx] at hcarried
    case refuse o => exact law.reportOutcome p r o hcarried
    case unlock e => exact EventLaw.of (law.freeEntry e hcarried)
    all_goals exact EventLaw.of hcarried

theorem setPhase (p : Port) (f : OpPhase → OpPhase) (h : P [] s) : P [] (s.setPhase p f) := by
  unfold State.setPhase
  split
  · exact h
  · exact law.setRecord p _ h

/-- A grant takes work off its list, and marks it where it waits (R133). -/
theorem grantWork {w : Work} (hw : s.choice = some w) (h : P [] s) : P [] (s.grantWork w) := by
  have hhandover : ∀ i rest, w = .handover i rest → rest ⊆ s.table.handover := by
    rintro i rest rfl
    unfold State.choice at hw
    split at hw
    · cases hw
    · cases hw
      simp [*]
    · obtain ⟨q, -, hq⟩ := List.exists_of_findSome?_eq_some hw
      unfold State.candidate at hq
      (repeat' split at hq) <;> cases hq
  unfold State.grantWork
  split
  · exact law.setMem _ (law.setPhase _ _ (law.setWriteBack _ h))
  · exact law.setMem _ (law.setResp _ _ _ (law.setHandover (hhandover _ _ rfl) h))
  · exact law.setMem _ (law.setPhase _ _ (law.setHandover (hhandover _ _ rfl) h))
  · exact law.setMem _ (law.setMem _ (law.setResp _ _ _ h))
  · exact law.setMem _ (law.setMem _ (law.setPhase _ _ h))

/-! #### The link, the memory port's passages, and time -/

theorem settle (h : P [] s) : P [] s.settle := by
  unfold State.settle
  split
  · split
    · exact law.setMem _ h
    · exact h
  all_goals exact h

theorem enterReply (r : Reply) (h : P [] s) : P [] (s.enterReply r) := law.congr (s := s) rfl rfl rfl h

theorem setLink (f : Frame) (h : P [] s) : P [] (s.setLink f) := law.congr (s := s) rfl rfl rfl h

theorem atLastArgument (c : MaintCommand) (b : Byte) {run : List Byte → State → State × Reply}
    (hrun : ∀ args, P [] (run args s).1) (h : P [] s) : P [] (s.atLastArgument c b run) :=
  State.atLastArgument_keeps b c (fun _ r ht => law.enterReply r ht) hrun h

theorem atCommandByte {run : State → State × Reply} (hrun : P [] (run s).1) (h : P [] s) : P [] (s.atCommandByte run) :=
  State.atCommandByte_keeps (fun _ r ht => law.enterReply r ht) hrun h

theorem tick (h : P [] s) : P [] s.tick := by
  have hentry : ∀ t e, P [] t → P [] (State.tickEntry t e) := by
    intro t e ht
    unfold State.tickEntry
    split
    · exact ht
    · split
      · exact ht
      · rename_i x hx _
        have hset := law.setWork e x.work.tick ht
        rwa [State.setWork_eq_modEntry, State.modEntry_of_some _ hx] at hset
  have hfold : P [] (allEntries.foldl State.tickEntry s) := List.foldlRecOn allEntries _ h fun t ht e _ => hentry t e ht
  have hcount : P [] s.countQuantum := by
    unfold State.countQuantum
    generalize allEntries.foldl State.tickEntry s = u at hfold
    exact law.congr (s := u) rfl rfl rfl hfold
  exact law.congr (State.ports_clockLink _) (State.table_clockLink _)
    (congrArg Pins.prst (State.pins_clockLink _)) hcount

/-! #### Maintenance commands at their points of effect -/

theorem writeProfile (p : Port) (args : List Byte) (h : P [] s) : P [] (s.writeProfile p args).1 := by
  unfold State.writeProfile
  split
  · exact h
  · obtain ⟨ha, hf⟩ := not_or.mp ‹_›
    split
    · exact h
    · split
      · exact h
      · exact law.acceptProfile _ ha hf h

theorem pausePort (p : Port) (h : P [] s) : P [] (s.pausePort p).1 := by
  unfold State.pausePort
  split
  · exact law.pause ‹_› h
  all_goals exact h

theorem resumePort (p : Port) (h : P [] s) : P [] (s.resumePort p).1 := by
  unfold State.resumePort
  split
  · exact law.resume ‹_› h
  all_goals exact h

theorem ackFault (p : Port) (h : P [] s) : P [] (s.ackFault p).1 := by
  unfold State.ackFault
  split
  · exact law.acknowledge ‹_› h
  · exact h

theorem writeRegion (g : RegionIx) (r : Region) (h : P [] s) : P [] (s.writeRegion g r).1 := by
  unfold State.writeRegion
  split
  · exact h
  · split
    · exact h
    · exact law.congr (s := s) rfl rfl rfl h

theorem breakLock (e : EntryIx) (h : P [] s) : P [] (s.breakLock e).1 := by
  unfold State.breakLock
  split
  · exact law.freeEntry e (law.changeHeld _ _ _ h)
  all_goals exact h

theorem setResponseLimit (v : Byte) (h : P [] s) : P [] (s.setResponseLimit v).1 := by
  unfold State.setResponseLimit
  split
  · exact h
  · split
    · exact h
    · exact law.setMem _ h

theorem recoverMemory (h : P [] s) : P [] s.recoverMemory.1 := by
  unfold State.recoverMemory
  split
  · exact law.settle (law.setMem { s.mem with state := .settling } h)
  all_goals exact h

/-! #### Every command, every step -/

/-- Every command keeps the law. -/
theorem exec {c : Instr} {t : State} (hexec : exec c s = .next t) (h : P [] s) : P [] t := by
  cases c
  all_goals obtain rfl := Host.Outcome.next.inj hexec
  case acceptance p r => split; exacts [law.acceptance r ‹_› h, h]
  case delivery p => split; exacts [law.delivery p h, h]
  case decision p =>
    split
    · exact h
    · split
      · exact law.fenced (law.decideHead ‹_› ‹_› h)
      · exact h
  case grant =>
    split
    · split
      · exact h
      · exact law.grantWork ‹_› h
    · exact h
  case transferAcceptance => exact law.setMem _ h
  case completion status data =>
    split
    · exact law.fenced (law.completeFront _ h)
    all_goals exact h
  case holdExpiry e => split; exacts [law.fenced (law.expire e h), h]
  case expiryDue e => split; exacts [law.setWork e _ h, h]
  case responseLimitExpiry => split; exacts [law.fenced (law.goDown _ h), h]
  case passageToUp memIdle => exact law.settle (law.congr (s := s) rfl rfl rfl h)
  case deviceReset defcfg => exact law.settle (law.reset ..)
  case prstNAsserted p => split; exacts [h, law.resetDrop p h]
  case prstNDeasserted p => split; exacts [law.resetRelease p h, h]
  case mcsNFalling => split; exacts [h, law.congr (s := s) rfl rfl rfl h]
  case mcsNRising => split; exacts [law.congr (s := s) rfl rfl rfl h, h]
  case badCommand b => split; exacts [law.enterReply _ h, h]
  case readStatus => exact law.atCommandByte h h
  case readPort b => exact law.atLastArgument _ b (fun _ => State.withPort_keeps _ (fun _ => h) h) h
  case readRegion b => exact law.atLastArgument _ b (fun _ => State.withRegion_keeps _ (fun _ => h) h) h
  case readLock b => exact law.atLastArgument _ b (fun _ => State.withEntry_keeps _ (fun _ => h) h) h
  case readMemoryPort => exact law.atCommandByte h h
  case writeProfile b => exact law.atLastArgument _ b (fun args => State.withPort_keeps _ (fun p => law.writeProfile p args h) h) h
  case pausePort b => exact law.atLastArgument _ b (fun _ => State.withPort_keeps _ (fun p => law.pausePort p h) h) h
  case resumePort b => exact law.atLastArgument _ b (fun _ => State.withPort_keeps _ (fun p => law.resumePort p h) h) h
  case ackFault b => exact law.atLastArgument _ b (fun _ => State.withPort_keeps _ (fun p => law.ackFault p h) h) h
  case writeRegion b => exact law.atLastArgument _ b (fun _ => State.withRegion_keeps _ (fun g => law.writeRegion g _ h) h) h
  case breakLock b => exact law.atLastArgument _ b (fun _ => State.withEntry_keeps _ (fun e => law.breakLock e h) h) h
  case setResponseLimit b => exact law.atLastArgument _ b (fun _ => law.setResponseLimit _ h) h
  case recoverMemory => exact law.atCommandByte (law.recoverMemory h) h
  case byteReceived b => split; exacts [h, law.setLink _ h]

/-- Every step keeps the law. -/
theorem step {t : State} (hstep : step s = .next t) (h : P [] s) : P [] t :=
  step_keeps (fun _ h => law.tick h) (fun s _ _ h => law.congr (s := s) rfl rfl rfl h) (fun _ _ _ hexec h => law.exec hexec h) hstep h

end

end CommandLaw

end Sys2Proof.Machine

/-! PROOF. What a teardown leaves (R127, R159..R161, R168): its port on no list and with no held line, and of the entries that name it
only those whose work goes on. -/

namespace Sys2Proof.Machine

/-! ### Off every waiter list and the entry-wait list (R159) -/

theorem State.modEntry_eq (s : State) (e : EntryIx) (g : Entry → Entry) : s.modEntry e g =
    { s with table := { s.table with entries := s.table.entries.set e (s.table.entries[e].map g) } } := by
  cases hx : s.entry e with
  | none =>
    have hget : s.table.entries[e] = none := hx
    have hset : s.table.entries.set e none = s.table.entries := by
      conv_lhs => rw [← hget]
      exact Vector.set_getElem_self _
    simp only [State.modEntry, hx, hget, Option.map_none, hset]
  | some x =>
    have hget : s.table.entries[e] = some x := hx
    simp only [State.modEntry, hx, hget, Option.map_some, State.setEntry]

/-- The entries, each of a list changed in turn. -/
def mapEntries (g : Entry → Entry) (l : List EntryIx) (v : Vector (Option Entry) 8) : Vector (Option Entry) 8 :=
  l.foldl (fun w (e : EntryIx) => w.set e (w[e].map g)) v

theorem foldl_modEntry (g : Entry → Entry) (l : List EntryIx) (s : State) :
    l.foldl (fun t e => t.modEntry e g) s = { s with table := { s.table with entries := mapEntries g l s.table.entries } } := by
  induction l generalizing s with
  | nil => rfl
  | cons e l ih => rw [List.foldl_cons, ih, State.modEntry_eq]; rfl

theorem getElem_mapEntries (g : Entry → Entry) {l : List EntryIx} (hl : l.Nodup) (v : Vector (Option Entry) 8) (i : EntryIx) :
    (mapEntries g l v)[i] = if i ∈ l then v[i].map g else v[i] := by
  induction l generalizing v with
  | nil => rfl
  | cons e l ih =>
    obtain ⟨he, hl⟩ := List.nodup_cons.mp hl
    have hstep : mapEntries g (e :: l) v = mapEntries g l (v.set e (v[e].map g)) := rfl
    rw [hstep, ih hl]
    by_cases hi : i = e
    · subst hi; simp [he]
    · simp [hi, Fin.val_inj, Ne.symm hi]

theorem mapEntries_allEntries (g : Entry → Entry) (v : Vector (Option Entry) 8) :
    mapEntries g allEntries v = v.map (Option.map g) := by
  refine Vector.ext fun i hi => ?_
  have hget := getElem_mapEntries g (l := allEntries) (by decide) v ⟨i, hi⟩
  rw [if_pos (mem_allEntries _)] at hget
  simpa using hget

theorem State.leaveLists_eq (s : State) (p : Port) : s.leaveLists p = { s with table := { s.table with
    entries := s.table.entries.map (Option.map (fun x => { x with waiters := x.waiters.filter (fun q => q != p) }))
    entryWait := s.table.entryWait.filter (fun q => q != p) } } := by
  unfold State.leaveLists
  simp only [State.leaveWaiters_eq_modEntry]
  rw [foldl_modEntry, mapEntries_allEntries]
  rfl

theorem State.entry_leaveLists (s : State) (p : Port) (e : EntryIx) : (s.leaveLists p).entry e =
    (s.entry e).map (fun x => { x with waiters := x.waiters.filter (fun q => q != p) }) := by
  simp [State.leaveLists_eq, State.entry]

/-! ### A port off every list stays off, through any event -/

theorem offLists_eventLaw (p : Port) : EventLaw (fun _ s => s.OffLists p) where
  congr _ ht _ h := by
    refine ⟨fun e x hx => h.waiters e x (by simpa only [State.entry, ht] using hx), ?_, ?_⟩
    · rw [ht]; exact h.entryWait
    · rw [ht]; exact h.handover
  modPort _ _ _ h := ⟨h.waiters, h.entryWait, h.handover⟩
  modEntry {_ s} e g _ hg h := by
    refine ⟨fun f y hy hp => ?_, by simpa using h.entryWait, by simpa using h.handover⟩
    rw [State.entry_modEntry] at hy
    split at hy
    · obtain ⟨x, hx, rfl⟩ := Option.map_eq_some_iff.mp hy
      exact h.waiters f x hx (hg x hp)
    · exact h.waiters f y hy hp
  setEntryWait hk h := ⟨h.waiters, fun hp => h.entryWait (hk hp), h.handover⟩
  setHandover hk h := ⟨h.waiters, h.entryWait, fun i hi => h.handover i (hk hi)⟩
  setHeldLines _ _ _ h := ⟨h.waiters, h.entryWait, h.handover⟩
  freeEntry e h := (Spares.freeEntry h e).offLists h
  report _ _ h := ⟨h.waiters, h.entryWait, h.handover⟩

theorem absent_eventLaw (p : Port) : EventLaw (fun _ s => s.Absent p) where
  congr hports ht hprst h := by
    obtain ⟨hoff, hlines⟩ := State.absent_iff.mp h
    refine State.absent_iff.mpr ⟨(offLists_eventLaw p).congr (l := []) hports ht hprst hoff, ?_⟩
    simpa only [State.heldLines, ht] using hlines
  modPort _ _ _ h := h
  modEntry e g hline hg h := by
    obtain ⟨hoff, hlines⟩ := State.absent_iff.mp h
    refine State.absent_iff.mpr ⟨(offLists_eventLaw p).modEntry (l := []) e g hline hg hoff, ?_⟩
    rw [State.heldLines_modEntry, hlines]
  setEntryWait hk h := by
    obtain ⟨hoff, hlines⟩ := State.absent_iff.mp h
    exact State.absent_iff.mpr ⟨(offLists_eventLaw p).setEntryWait (l := []) hk hoff, hlines⟩
  setHandover hk h := by
    obtain ⟨hoff, hlines⟩ := State.absent_iff.mp h
    exact State.absent_iff.mpr ⟨(offLists_eventLaw p).setHandover (l := []) hk hoff, hlines⟩
  setHeldLines q k hk h := by
    obtain ⟨hoff, hlines⟩ := State.absent_iff.mp h
    refine State.absent_iff.mpr ⟨⟨hoff.waiters, hoff.entryWait, hoff.handover⟩, ?_⟩
    rw [State.heldLines_setHeldLines]
    split
    · exact hk (‹p = q› ▸ hlines)
    · exact hlines
  freeEntry e h := (Spares.freeEntry (State.absent_iff.mp h).1 e).absent h
  report _ _ h := h

/-! ### The work of a port that a teardown leaves -/

/-- Where entry `e` names port `p` as its owner it is detached, or FUSING FRESH with the record of `p` that names it (R161, R168). -/
def State.InFlight (s : State) (p : Port) (e : EntryIx) : Prop :=
  ∀ x, s.entry e = some x → x.owner = p →
    x.work.detached = true ∨ x.work = .fusingFresh ∧ ∃ r, s.record p = some r ∧ r.entry = e

theorem Spares.inFlight {p : Port} {s t : State} (h : Spares p s t) {e : EntryIx} (hs : s.InFlight p e) : t.InFlight p e := by
  intro y hy hp
  obtain ⟨x, hx, hpx, hwork⟩ := h.owned e y hy hp
  rw [← hwork, h.record]
  exact hs x hx hpx

/-- What stage 3 does at one entry: its port keeps standing on no list, its interface stays, the entry is in flight afterwards, and what
was in flight still is. -/
structure Detaching (p : Port) (e : EntryIx) (s t : State) : Prop where
  offLists : t.OffLists p
  port     : t.port p = s.port p
  entry    : t.InFlight p e
  others   : ∀ f, s.InFlight p f → t.InFlight p f

namespace Detaching

variable {p : Port} {e : EntryIx} {s : State} {x : Entry}

theorem unchanged (hs : s.OffLists p) (he : s.InFlight p e) : Detaching p e s s := ⟨hs, rfl, he, fun _ h => h⟩

theorem freed (hs : s.OffLists p) (hx : s.entry e = some x) : Detaching p e s (s.freeEntry e) := by
  have hspared := Spares.freeEntry hs e
  refine ⟨hspared.offLists hs, hspared.port, ?_, fun _ h => hspared.inFlight h⟩
  refine (Spares.freeEntry_of_some hs hx).inFlight fun y hy => ?_
  rw [State.entry_setEntry_self] at hy
  cases hy

theorem marked (hs : s.OffLists p) (e : EntryIx) {w : EntryWork} (hw : w.detached = true) : Detaching p e s (s.setWork e w) := by
  rw [State.setWork_eq_modEntry]
  refine ⟨(offLists_eventLaw p).setWork (l := []) e w hs, by simp, fun y hy _ => ?_, fun f hf y hy hp => ?_⟩
  · rw [State.entry_modEntry, if_pos rfl] at hy
    obtain ⟨z, -, rfl⟩ := Option.map_eq_some_iff.mp hy
    exact .inl hw
  · rw [State.entry_modEntry] at hy
    split at hy
    · obtain ⟨z, -, rfl⟩ := Option.map_eq_some_iff.mp hy
      exact .inl hw
    · simpa using hf y hy hp

theorem detachRecord {t : State} (h : Detaching p e s t) : Detaching p e s (t.detachRecord p) := by
  unfold State.detachRecord
  split
  case h_1 => exact h
  case h_2 r hr =>
    have hkept : ∀ f, t.InFlight p f → (t.setRecord p (some { r with detached := true })).InFlight p f := by
      intro f hf y hy hp
      obtain hd | ⟨hfresh, r', hr', hentry⟩ := hf y hy hp
      · exact .inl hd
      · cases hr.symm.trans hr'
        exact .inr ⟨hfresh, _, State.record_setRecord_self .., hentry⟩
    exact ⟨(offLists_eventLaw p).setRecord (l := []) p _ h.offLists, h.port, hkept e h.entry, fun f hf => hkept f (h.others f hf)⟩

/-- Stage 3 at one entry: freed, marked detached, or left where nothing is to do. -/
theorem teardownEntry (hs : s.OffLists p) (e : EntryIx) : Detaching p e s (State.teardownEntry p s e) := by
  unfold State.teardownEntry
  split
  case h_1 hx => exact unchanged hs fun y hy => by simp [hx] at hy
  case h_2 x hx =>
    split
    case isFalse hp => exact unchanged hs fun y hy hyp => absurd hyp (by cases hx.symm.trans hy; exact hp)
    case isTrue hp =>
      split
      case h_1 => exact freed hs hx
      case h_2 => split; exacts [marked hs e rfl, freed hs hx]
      case h_3 => split; exacts [marked hs e rfl, freed hs hx]
      case h_4 => split; exacts [(marked hs e rfl).detachRecord, freed hs hx]
      case h_5 hwork =>
        split
        case isTrue hgoes =>
          refine unchanged hs fun y hy _ => .inr ⟨by cases hx.symm.trans hy; exact hwork, ?_⟩
          simpa [State.operationGoesOn, Option.any_eq_true] using hgoes
        case isFalse => exact freed hs hx
      all_goals
        rename_i hwork
        exact unchanged hs fun y hy _ => .inl (by cases hx.symm.trans hy; rw [hwork]; rfl)

/-- Stage 3 over a list of entries. -/
theorem foldl (l : List EntryIx) (hs : s.OffLists p) : (l.foldl (State.teardownEntry p) s).OffLists p ∧
    (l.foldl (State.teardownEntry p) s).port p = s.port p ∧
    (∀ e ∈ l, (l.foldl (State.teardownEntry p) s).InFlight p e) ∧
    ∀ f, s.InFlight p f → (l.foldl (State.teardownEntry p) s).InFlight p f := by
  induction l generalizing s with
  | nil => exact ⟨hs, rfl, nofun, fun _ h => h⟩
  | cons e l ih =>
    have hstep := teardownEntry hs e
    obtain ⟨hoff, hport, hentries, hothers⟩ := ih hstep.offLists
    refine ⟨hoff, hport.trans hstep.port, fun f hf => ?_, fun f hf => hothers f (hstep.others f hf)⟩
    obtain rfl | hf := List.mem_cons.mp hf
    · exact hothers f hstep.entry
    · exact hentries f hf

end Detaching

/-! ### A teardown, whole -/

/-- Stages 1 and 2: the state in which stage 3 begins. -/
def State.torn (s : State) (p : Port) : State := ((s.teardownWaiting p).teardownTransfers p).teardownOperation p

theorem State.teardown_eq (s : State) (p : Port) :
    s.teardown p = (allEntries.foldl (State.teardownEntry p) (s.torn p)).setHeldLines p [] := rfl

/-- After stages 1 and 2 the port stands on no list (R159, R160). -/
theorem State.torn_offLists (s : State) (p : Port) : (s.torn p).OffLists p := by
  refine (offLists_eventLaw p).teardownOperation (l := []) p ⟨fun e x hx => ?_, ?_, fun i hi => ?_⟩
  · simp only [State.teardownTransfers, State.teardownWaiting, State.entry_modPort, State.entry_setHandover,
      State.entry_leaveLists] at hx
    obtain ⟨y, -, rfl⟩ := Option.map_eq_some_iff.mp hx
    simp
  · simp [State.teardownTransfers, State.teardownWaiting, State.leaveLists_eq]
  · simp only [State.teardownTransfers, State.table_handover_modPort, State.table_handover_setHandover, List.mem_filter,
      bne_iff_ne] at hi
    exact hi.2

theorem State.OffLists.absent {s : State} {p : Port} (h : s.OffLists p) : (s.setHeldLines p []).Absent p :=
  State.absent_iff.mpr ⟨⟨h.waiters, h.entryWait, h.handover⟩, State.heldLines_setHeldLines_self ..⟩

theorem State.teardown_absent (s : State) (p : Port) : (s.teardown p).Absent p := by
  obtain ⟨hoff, -⟩ := Detaching.foldl allEntries (s.torn_offLists p)
  exact hoff.absent

theorem State.inFlight_setHeldLines {s : State} {p q : Port} {l : List HeldLine} {e : EntryIx} (h : s.InFlight p e) :
    (s.setHeldLines q l).InFlight p e := h

theorem State.teardown_ownsOnlyWorkInFlight (s : State) (p : Port) : (s.teardown p).OwnsOnlyWorkInFlight p := by
  obtain ⟨-, -, hentries, -⟩ := Detaching.foldl allEntries (s.torn_offLists p)
  exact fun e => State.inFlight_setHeldLines (hentries e (mem_allEntries e))

theorem State.port_teardown_self (s : State) (p : Port) : (s.teardown p).port p = (s.torn p).port p := by
  obtain ⟨-, hport, -⟩ := Detaching.foldl allEntries (s.torn_offLists p)
  exact (State.port_setHeldLines ..).trans hport

end Sys2Proof.Machine

/-! PROOF. The laws of the interlock table and of the ports that every step keeps (O54, O55, O56, O58, O59), each from the induction
over a command. -/

namespace Sys2Proof.Machine

/-! ### Lines distinct (R47) -/

theorem State.LinesDistinct.modPort {s : State} (h : s.LinesDistinct) (p : Port) (f : PortIf → PortIf) :
    (s.modPort p f).LinesDistinct := h

theorem linesDistinct_eventLaw : EventLaw (fun _ => State.LinesDistinct) where
  congr _ ht _ h := h.congr (congrArg Interlock.entries ht)
  modPort _ _ _ h := h
  modEntry e g hline _ h := h.modEntry e g hline
  setEntryWait _ h := h
  setHandover _ h := h
  setHeldLines _ _ _ h := h
  freeEntry e h := h.freeEntry e
  report _ _ h := h

theorem State.LinesDistinct.drop {s : State} (h : s.LinesDistinct) (p : Port) : (s.drop p).LinesDistinct :=
  (linesDistinct_eventLaw.teardown (l := []) p (h.modPort p _)).modPort p _

theorem linesDistinct_commandLaw : CommandLaw (fun _ => State.LinesDistinct) where
  toEventLaw := linesDistinct_eventLaw
  fenced h := linesDistinct_eventLaw.settled h
  acceptance _ _ h := h
  delivery _ h := h
  refused _ _ _ h := h
  decided {s p r _} c _ _ _ h :=
    (State.LinesDistinct.stageLaw p).carryOut_of_setEntryWait (a := asked s p r c) (fun _ h => h) (State.stage_meant ..) h
  reset _ _ _ _ _ := by
    intro e f x y hx
    simp [State.entry, State.resetWith, Interlock.reset] at hx
  resetDrop {s} p h := State.LinesDistinct.drop (s := s.setPrst p true) h p
  resetRelease _ h := h
  acceptProfile {s p} f _ _ h := by
    unfold State.acceptProfile
    split
    · exact (h.modPort p _).drop p
    · exact h
  pause _ h := (linesDistinct_eventLaw.leaveLists (l := []) _ (h.modPort _ _)).modPort _ _
  resume _ h := h
  acknowledge _ h := h

/-- Settles O54: a freeing frees a line before another takes it, and an entry is taken for a free line only. -/
theorem everyStepKeepsLinesDistinct : Obligations.EveryStepKeepsLinesDistinct :=
  fun _ _ h hstep => linesDistinct_commandLaw.step hstep h

/-! ### No entry FREE while a port waits for one (R75) -/

theorem State.NoneFreeWhileWaiting.modPort {s : State} (h : s.NoneFreeWhileWaiting) (p : Port) (f : PortIf → PortIf) :
    (s.modPort p f).NoneFreeWhileWaiting := h

theorem noneFreeWhileWaiting_eventLaw : EventLaw (fun _ => State.NoneFreeWhileWaiting) where
  congr _ ht _ h hw e := by
    simp only [State.entry, ht] at hw ⊢
    exact h hw e
  modPort _ _ _ h := h
  modEntry {_ s} e g _ _ h := h.of_filled ((Filled.refl s).modEntry e g)
  setEntryWait hk h := h.setEntryWait fun hnil => List.subset_nil.mp (hnil ▸ hk)
  setHandover _ h := h
  setHeldLines _ _ _ h := h
  freeEntry e h := h.freeEntry e
  report _ _ h := h

theorem State.NoneFreeWhileWaiting.drop {s : State} (h : s.NoneFreeWhileWaiting) (p : Port) : (s.drop p).NoneFreeWhileWaiting :=
  (noneFreeWhileWaiting_eventLaw.teardown (l := []) p (h.modPort p _)).modPort p _

theorem noneFreeWhileWaiting_commandLaw : CommandLaw (fun _ => State.NoneFreeWhileWaiting) where
  toEventLaw := noneFreeWhileWaiting_eventLaw
  fenced h := noneFreeWhileWaiting_eventLaw.settled h
  acceptance _ _ h := h
  delivery _ h := h
  refused _ _ _ h := h
  decided {s p r _} c _ _ _ h := by
    have hmeant := (s.takeHead p).stage_meant p c (s.takeHead p).entryToTake
    by_cases hw : (s.takeHead p).stage p c (s.takeHead p).entryToTake = .waitEntry
    · rw [hw] at hmeant ⊢
      intro _ e
      rw [Asking.carryOut, Asking.entry_enter]
      obtain hwait | hnone := State.entryToTake_eq_none hmeant
      · exact h hwait e
      · exact hnone e
    · exact State.NoneFreeWhileWaiting.of_filled (s := s.takeHead p) h
        ((Filled.stageLaw _ p).carryOut (a := asked s p r c) hmeant hw (Filled.refl _))
  reset _ _ _ _ _ hw := absurd rfl hw
  resetDrop {s} p h := State.NoneFreeWhileWaiting.drop (s := s.setPrst p true) h p
  resetRelease _ h := h
  acceptProfile {s p} f _ _ h := by
    unfold State.acceptProfile
    split
    · exact (h.modPort p _).drop p
    · exact h
  pause _ h := (noneFreeWhileWaiting_eventLaw.leaveLists (l := []) _ (h.modPort _ _)).modPort _ _
  resume _ h := h
  acknowledge _ h := h

/-- Settles O59: an entry that is freed stays FREE only after it has gone down the whole entry-wait list, and a port joins that list
only where it finds no entry. -/
theorem everyStepLeavesNoEntryFreeWhileAPortWaits : Obligations.EveryStepLeavesNoEntryFreeWhileAPortWaits :=
  fun _ _ h hstep => noneFreeWhileWaiting_commandLaw.step hstep h

/-! ### Queues and response lists bounded (R8, R13) -/

/-- A report leaves what waits at a port. -/
theorem PortIf.takeReport_keeps_lists (x : PortIf) (r : Report) :
    (x.takeReport r).inbound = x.inbound ∧ (x.takeReport r).resp = x.resp := by
  obtain ⟨-, hqueue, -, hresp, hheld⟩ := EventWork.takeReport x r
  exact ⟨by rw [PortIf.inbound, hqueue, hheld, PortIf.inbound], hresp⟩

/-- What a decision that its interlock stage carries out makes of its port: the head has left the queue for one more entry of the
response list, and may be the held place. -/
theorem State.decided_port {s : State} {p : Port} (r : Request) (c : Checked) (x : StageResult) :
    let y := ((asked s p r c).carryOut x (s.takeHead p)).port p
    y.state = (s.port p).state ∧ y.fault = (s.port p).fault ∧ y.queue = (s.port p).queue.tail ∧
      y.resp.length = (s.port p).resp.length + 1 := by
  obtain ⟨st, f, hf, hports⟩ := (asked s p r c).ports_carryOut x (s.takeHead p)
  have hport : ((asked s p r c).carryOut x (s.takeHead p)).port p = f ((s.takeHead p).port p) := by
    rw [State.port, hports]
    exact State.port_modPort_self (s.takeHead p) p f
  rw [hport, State.takeHead, State.port_modPort_self]
  obtain rfl | rfl := hf <;> simp [Asking.entered]

theorem State.decided_port_of_ne {s : State} {p q : Port} (hq : q ≠ p) (r : Request) (c : Checked) (x : StageResult) :
    ((asked s p r c).carryOut x (s.takeHead p)).port q = s.port q := by
  obtain ⟨st, f, -, hports⟩ := (asked s p r c).ports_carryOut x (s.takeHead p)
  rw [State.port, hports]
  exact (State.port_modPort_of_ne (s.takeHead p) p f q hq).trans (State.port_modPort_of_ne s p _ q hq)

/-- The bounds of one port. -/
def PortIf.Bounded (x : PortIf) : Prop := x.inbound ≤ 8 ∧ x.resp.length ≤ 4

theorem PortIf.Bounded.keeps {x y : PortIf} (h : x.Bounded) (k : x.Keeps y) : y.Bounded :=
  ⟨k.inbound_le.trans h.1, k.length.trans_le h.2⟩

/-- A law of each port by itself, after a change of one port. -/
theorem State.forall_port_modPort {P : Port → PortIf → Prop} {s : State} (h : ∀ q, P q (s.port q)) (p : Port)
    (f : PortIf → PortIf) (hf : P p (f (s.port p))) : ∀ q, P q ((s.modPort p f).port q) := by
  intro q
  by_cases hq : q = p
  · subst hq; simpa using hf
  · simpa [hq] using h q

theorem queuesBounded_eventLaw : EventLaw (fun _ => State.QueuesBounded) where
  congr hports _ _ h p := by simpa only [State.port, hports] using h p
  modPort p f hf h := State.forall_port_modPort (P := fun _ => PortIf.Bounded) h p f (PortIf.Bounded.keeps (h p) hf)
  modEntry e g _ _ h p := by simpa only [State.port_modEntry] using h p
  setEntryWait _ h := h
  setHandover _ h := h
  setHeldLines _ _ _ h := h
  freeEntry {_ s} e h p := PortIf.Bounded.keeps (h p) (s.freeEntry_keeps_port e p)
  report {_ s} p r h := State.forall_port_modPort (P := fun _ => PortIf.Bounded) h p _ <| by
    obtain ⟨hin, hresp⟩ := (s.port p).takeReport_keeps_lists r
    exact ⟨hin ▸ (h p).1, hresp ▸ (h p).2⟩

/-- A teardown changes each port only as its work goes on and ends. -/
theorem State.teardown_keeps_port (s : State) (p q : Port) : (s.port q).Keeps ((s.teardown p).port q) := by
  have hwork := TableWork.teardown s p
  have law : EventLaw (fun _ t => (t.port q).held.isSome = true → (s.port q).held.isSome = true) :=
    { congr := fun hports _ _ h => by simpa only [State.port, hports] using h
      modPort := fun {_ t} r f hf h => by
        by_cases hq : q = r
        · subst hq; simpa using fun hs => h (hf.held hs)
        · simpa [hq] using h
      modEntry := fun e g _ _ h => by simpa only [State.port_modEntry] using h
      setEntryWait := fun _ h => h
      setHandover := fun _ h => h
      setHeldLines := fun _ _ _ h => h
      freeEntry := fun {_ t} e h hs => h ((t.freeEntry_keeps_port e q).held hs)
      report := fun {_ t} r x h => by
        by_cases hq : q = r
        · subst hq; simpa [State.report, EventWork.takeReport (t.port q) x] using h
        · simpa [State.report, hq] using h }
  exact ⟨hwork.state q, hwork.queue q, hwork.fault q, hwork.length q, law.teardown (l := []) p id⟩

theorem State.port_resetWith (pins : Pins) (wire : List (Option Bool)) (clock : Clock) (choices : Nat) (pending : List Instr)
    (p : Port) : (State.resetWith pins wire clock choices pending).port p = PortIf.reset pins.defcfg pins.prst[p] := by
  fin_cases p <;> rfl

theorem PortIf.withdrawn_inbound (x : PortIf) : x.withdrawn.inbound = x.inbound := by
  simp only [PortIf.inbound, PortIf.withdrawn]
  cases x.held <;> simp

theorem State.QueuesBounded.modPort {s : State} (h : s.QueuesBounded) (p : Port) (f : PortIf → PortIf)
    (hf : (f (s.port p)).Bounded) : (s.modPort p f).QueuesBounded :=
  State.forall_port_modPort (P := fun _ => PortIf.Bounded) h p f hf

theorem State.QueuesBounded.drop {s : State} (h : s.QueuesBounded) (p : Port) : (s.drop p).QueuesBounded :=
  (queuesBounded_eventLaw.teardown (l := []) p (h.modPort p (fun x => { x with state := .offline }) (h p))).modPort p
    PortIf.dropped ⟨Nat.zero_le _, Nat.zero_le _⟩

theorem PortIf.Bounded.withdrawn {x : PortIf} (h : x.Bounded) : x.withdrawn.Bounded :=
  ⟨x.withdrawn_inbound.trans_le h.1, (List.length_filter_le _ _).trans h.2⟩

theorem State.QueuesBounded.withdraw {s : State} (h : s.QueuesBounded) (p : Port) : (s.withdraw p).QueuesBounded := by
  have hleft : (s.leaveLists p).QueuesBounded := queuesBounded_eventLaw.leaveLists (l := []) p h
  exact hleft.modPort p PortIf.withdrawn (PortIf.Bounded.withdrawn (hleft p))

theorem State.decides_iff {s : State} {p : Port} : s.decides p = true ↔
    ((s.port p).state = .active ∨ (s.port p).state = .fenced) ∧ (s.port p).queue ≠ [] ∧ (s.port p).resp.length < 4 ∧
      s.blocked p = false := by
  simp [State.decides, and_assoc]

theorem queuesBounded_commandLaw : CommandLaw (fun _ => State.QueuesBounded) where
  toEventLaw := queuesBounded_eventLaw
  fenced h := queuesBounded_eventLaw.settled h
  acceptance {s p} r hr h := h.modPort p _ <| by
    have hroom : (s.port p).inbound < 8 := by simp_all [PortIf.ready]
    simp only [PortIf.Bounded, PortIf.inbound, List.length_append, List.length_singleton] at hroom ⊢
    exact ⟨by omega, (h p).2⟩
  delivery {s} p h := h.modPort p _ ⟨(h p).1, (List.tail_sublist _).length_le.trans (h p).2⟩
  refused {s p r rest} o hd hq h := by
    obtain ⟨-, -, hlen, -⟩ := State.decides_iff.mp hd
    have hin := (h p).1
    unfold State.takeHead State.enterRefused
    rw [State.modPort_modPort]
    refine h.modPort p _ ?_
    simp only [PortIf.Bounded, PortIf.inbound, hq, List.length_append, List.length_cons, List.tail_cons] at hin ⊢
    exact ⟨by omega, hlen⟩
  decided {s p r rest} c hd _ hq h q := by
    by_cases hqp : q = p
    · subst hqp
      obtain ⟨-, -, hqueue, hresp⟩ := State.decided_port (s := s) (p := q) r c
        ((s.takeHead q).stage q c (s.takeHead q).entryToTake)
      obtain ⟨-, -, hlen, -⟩ := State.decides_iff.mp hd
      have hin := (h q).1
      simp only [PortIf.inbound, hqueue, hresp, hq, List.tail_cons, List.length_cons] at hin ⊢
      refine ⟨?_, hlen⟩
      split <;> omega
    · rw [State.decided_port_of_ne hqp]
      exact h q
  reset pins wire clock choices pending p := by
    rw [State.port_resetWith]
    simp [PortIf.reset, PortIf.inbound]
  resetDrop {s} p h := State.QueuesBounded.drop (s := s.setPrst p true) h p
  resetRelease {s} p h := State.QueuesBounded.modPort (s := s.setPrst p false) h p _ <| by
    unfold PortIf.released
    split <;> exact h p
  acceptProfile {s p} f _ _ h := by
    have hset := h.modPort p
      (fun x => { x with profile := f, state := stateAfterProfile x.state f.enabled (s.prst p) }) (h p)
    unfold State.acceptProfile
    split
    · exact hset.drop p
    · exact hset
  pause {s p} _ h := (h.modPort p (fun x => { x with state := .paused }) (h p)).withdraw p
  resume {s p} _ h := h.modPort p _ (h p)
  acknowledge {s p} _ h := h.modPort p _ (h p)

/-! ### Port states and fault records in agreement (R22, R155, R156) -/

/-- The law of one port, by the level of its PRST_N. -/
def PortIf.Legal (prst : Bool) (x : PortIf) : Prop :=
  (prst = true → x.state = .offline) ∧ (x.state = .fenced ↔ ∃ r k, x.fault = .two r k) ∧
    (x.state = .offline → x.held = none ∧ x.queue = [] ∧ x.resp = [] ∧ x.fault = .empty)

namespace PortIf.Legal

variable {prst : Bool} {x y : PortIf}

theorem keeps (h : x.Legal prst) (k : x.Keeps y) : y.Legal prst := by
  obtain ⟨hprst, hfenced, hoffline⟩ := h
  refine ⟨fun hp => k.state.trans (hprst hp), by rw [k.state, k.fault]; exact hfenced, fun ho => ?_⟩
  obtain ⟨hheld, hqueue, hresp, hfault⟩ := hoffline (k.state.symm.trans ho)
  refine ⟨?_, k.queue.trans hqueue, List.length_eq_zero_iff.mp (by rw [k.length, hresp]; rfl), k.fault.trans hfault⟩
  simpa [hheld] using k.held

/-- What a port in service has in its queue and lists is its own. -/
theorem in_service (h : x.Legal prst) (hx : x.state ≠ .offline) (hs : y.state = x.state) (hf : y.fault = x.fault) :
    y.Legal prst := by
  obtain ⟨hprst, hfenced, -⟩ := h
  exact ⟨fun hp => absurd (hprst hp) hx, by rw [hs, hf]; exact hfenced, fun ho => absurd (hs.symm.trans ho) hx⟩

theorem withdrawn (h : x.Legal prst) (hx : x.state ≠ .offline) : x.withdrawn.Legal prst := h.in_service hx rfl rfl

theorem dropped (hx : x.state = .offline) : x.dropped.Legal prst :=
  ⟨fun _ => hx, ⟨fun hf => (nomatch hx.symm.trans hf), fun ⟨_, _, hf⟩ => nomatch hf⟩, fun _ => ⟨rfl, rfl, rfl, rfl⟩⟩

/-- A port that takes another state in service, its record not holding two faults. -/
theorem enter_service (h : x.Legal prst) (hx : prst = true → x.state ≠ .offline) (hs : y.state = .active ∨ y.state = .paused)
    (hf : ∀ r k, y.fault ≠ .two r k) : y.Legal prst := by
  obtain ⟨hprst, -, -⟩ := h
  refine ⟨fun hp => absurd (hprst hp) (hx hp), ⟨fun hy => ?_, fun ⟨r, k, hy⟩ => absurd hy (hf r k)⟩, fun hy => ?_⟩
  all_goals obtain hs | hs := hs <;> cases hs.symm.trans hy

/-- A report fences the port exactly where it is the second (R156). -/
theorem takeReport (h : x.Legal prst) (r : Report) : (x.takeReport r).Legal prst := by
  unfold PortIf.takeReport
  split
  case h_1 hs hf => exact h.enter_service (by simp [hs]) (.inl hs) (by simp)
  case h_2 hs hf => exact h.enter_service (by simp [hs]) (.inr hs) (by simp)
  case h_3 hs _ | h_4 hs _ =>
    obtain ⟨hprst, -, -⟩ := h
    exact ⟨fun hp => by simp [hprst hp] at hs, by simp, by simp⟩
  case h_5 => exact h

end PortIf.Legal

theorem State.prst_setPrst (s : State) (p : Port) (b : Bool) (q : Port) :
    (s.setPrst p b).prst q = if q = p then b else s.prst q := by
  by_cases h : q = p
  · subst h; simp [State.prst, State.setPrst]
  · simp [State.prst, State.setPrst, h, Fin.val_inj, Ne.symm h]

theorem State.PortStatesLegal.modPort {s : State} {p : Port} (h : ∀ q ≠ p, (s.port q).Legal (s.prst q)) (f : PortIf → PortIf)
    (hf : (f (s.port p)).Legal (s.prst p)) : (s.modPort p f).PortStatesLegal := by
  intro q
  by_cases hq : q = p
  · subst hq; rw [State.port_modPort_self]; exact hf
  · rw [State.port_modPort_of_ne _ _ _ _ hq]; exact h q hq

theorem State.prst_teardown (s : State) (p q : Port) : (s.teardown p).prst q = s.prst q := by
  rw [State.prst, (TableWork.teardown s p).pins, State.prst]

/-- A drop leaves its own port OFFLINE and empty, whatever it held. -/
theorem State.PortStatesLegal.drop {s : State} {p : Port} (h : ∀ q ≠ p, (s.port q).Legal (s.prst q)) :
    (s.drop p).PortStatesLegal := by
  unfold State.drop
  refine State.PortStatesLegal.modPort (fun q hq => ?_) PortIf.dropped ?_
  · rw [State.prst_teardown]
    refine PortIf.Legal.keeps ?_ (State.teardown_keeps_port _ p q)
    rw [State.port_modPort_of_ne _ _ _ _ hq]
    exact h q hq
  · have hstate : (((s.modPort p fun x => { x with state := .offline }).teardown p).port p).state = .offline := by
      rw [(TableWork.teardown _ p).state p, State.port_modPort_self]
    exact PortIf.Legal.dropped hstate

theorem portStatesLegal_eventLaw : EventLaw (fun _ => State.PortStatesLegal) where
  congr hports _ hprst h p := by simpa only [State.port, State.prst, hports, hprst] using h p
  modPort p f hf h := State.PortStatesLegal.modPort (fun q _ => h q) f (PortIf.Legal.keeps (h p) hf)
  modEntry e g _ _ h p := by simpa only [State.port_modEntry, State.prst, State.pins_modEntry] using h p
  setEntryWait _ h := h
  setHandover _ h := h
  setHeldLines _ _ _ h := h
  freeEntry {_ s} e h p := by
    have hp := PortIf.Legal.keeps (h p) (s.freeEntry_keeps_port e p)
    rwa [State.prst, ← (TableWork.freeEntry s e).pins] at hp
  report p r h := State.PortStatesLegal.modPort (fun q _ => h q) _ (PortIf.Legal.takeReport (h p) r)

theorem State.PortStatesLegal.withdraw {s : State} {p : Port} (h : s.PortStatesLegal) (hs : (s.port p).state ≠ .offline) :
    (s.withdraw p).PortStatesLegal := by
  have hleft : (s.leaveLists p).PortStatesLegal := portStatesLegal_eventLaw.leaveLists (l := []) p h
  have hstate : ((s.leaveLists p).port p).state ≠ .offline := by rwa [(TableWork.leaveLists s p).state p]
  exact State.PortStatesLegal.modPort (fun q _ => hleft q) PortIf.withdrawn (PortIf.Legal.withdrawn (hleft p) hstate)

theorem portStatesLegal_commandLaw : CommandLaw (fun _ => State.PortStatesLegal) where
  toEventLaw := portStatesLegal_eventLaw
  fenced h := portStatesLegal_eventLaw.settled h
  acceptance {s p} r hr h := State.PortStatesLegal.modPort (fun q _ => h q) _ <| by
    have hs : (s.port p).state ≠ .offline := by simp_all [PortIf.ready]
    exact PortIf.Legal.in_service (h p) hs rfl rfl
  delivery {s} p h := State.PortStatesLegal.modPort (fun q _ => h q) _ <| by
    obtain ⟨hprst, hfenced, hoffline⟩ := h p
    refine ⟨hprst, hfenced, fun ho => ?_⟩
    obtain ⟨hheld, hqueue, hresp, hfault⟩ := hoffline ho
    exact ⟨hheld, hqueue, by rw [hresp]; rfl, hfault⟩
  refused {s p r _} o hd _ h := by
    have hs : (s.port p).state ≠ .offline := by
      obtain ⟨ha | hf, -⟩ := State.decides_iff.mp hd <;> simp [*]
    unfold State.takeHead State.enterRefused
    rw [State.modPort_modPort]
    exact State.PortStatesLegal.modPort (fun q _ => h q) _ (PortIf.Legal.in_service (h p) hs rfl rfl)
  decided {s p r _} c _ ha _ h q := by
    rw [State.prst, ((OwnWork.refl _).carryOut (asked s p r c) (State.stage_meant ..)).pins]
    by_cases hqp : q = p
    · subst hqp
      obtain ⟨hstate, hfault, -, -⟩ := State.decided_port (s := s) (p := q) r c
        ((s.takeHead q).stage q c (s.takeHead q).entryToTake)
      exact PortIf.Legal.in_service (h q) (by simp [ha]) hstate hfault
    · rw [State.decided_port_of_ne hqp]
      exact h q
  reset pins wire clock choices pending p := by
    have hprst : (State.resetWith pins wire clock choices pending).prst p = pins.prst[p] := rfl
    rw [State.port_resetWith, hprst]
    cases pins.defcfg <;> cases pins.prst[p] <;> simp [PortIf.reset, PortState.reset]
  resetDrop {s} p h := State.PortStatesLegal.drop fun q hq => by
    rw [State.prst_setPrst, if_neg hq]
    exact h q
  resetRelease {s} p h := State.PortStatesLegal.modPort (fun q hq => by rw [State.prst_setPrst, if_neg hq]; exact h q) _ <| by
    obtain ⟨-, hfenced, hoffline⟩ := h p
    rw [State.prst_setPrst, if_pos rfl]
    unfold PortIf.released
    split
    case isTrue ho =>
      obtain ⟨-, -, -, hfault⟩ := hoffline ho.1
      refine ⟨nofun, ?_, nofun⟩
      simp only [reduceCtorEq, false_iff]
      rintro ⟨r, k, hf⟩
      cases hfault.symm.trans hf
    case isFalse => exact ⟨nofun, hfenced, hoffline⟩
  acceptProfile {s p} f ha hf h := by
    have hset : (s.modPort p fun x =>
        { x with profile := f, state := stateAfterProfile x.state f.enabled (s.prst p) }).PortStatesLegal :=
      State.PortStatesLegal.modPort (fun q _ => h q) _ <| by
        obtain ⟨hprst, hfenced, hoffline⟩ := h p
        cases hs : (s.port p).state with
        | active => exact absurd hs ha
        | fenced => exact absurd hs hf
        | paused => exact PortIf.Legal.in_service (h p) (by simp [hs]) (by simp [stateAfterProfile, hs]) rfl
        | offline =>
          obtain ⟨hheld, hqueue, hresp, hfault⟩ := hoffline hs
          cases f.enabled <;> cases s.prst p <;> simp [PortIf.Legal, stateAfterProfile, hheld, hqueue, hresp, hfault]
    unfold State.acceptProfile
    split
    · exact State.PortStatesLegal.drop fun q _ => hset q
    · exact hset
  pause {s p} ha h := by
    refine State.PortStatesLegal.withdraw (State.PortStatesLegal.modPort (fun q _ => h q) _ ?_) (by simp)
    obtain ⟨-, hfenced, -⟩ := h p
    exact PortIf.Legal.enter_service (h p) (by simp [ha]) (.inr rfl) fun r k hf => by simpa [ha] using hfenced.mpr ⟨r, k, hf⟩
  resume {s p} hp h := State.PortStatesLegal.modPort (fun q _ => h q) _ <| by
    obtain ⟨-, hfenced, -⟩ := h p
    exact PortIf.Legal.enter_service (h p) (by simp [hp]) (.inl rfl) fun r k hf => by simpa [hp] using hfenced.mpr ⟨r, k, hf⟩
  acknowledge {s p} ho h := State.PortStatesLegal.modPort (fun q _ => h q) _ <| by
    obtain ⟨hprst, hfenced, hoffline⟩ := h p
    cases hs : (s.port p).state with
    | active => exact PortIf.Legal.enter_service (h p) (by simp [hs]) (.inl (by simp [PortIf.acknowledged, hs])) nofun
    | paused => exact PortIf.Legal.enter_service (h p) (by simp [hs]) (.inr (by simp [PortIf.acknowledged, hs])) nofun
    | fenced => exact PortIf.Legal.enter_service (h p) (by simp [hs]) (.inr (by simp [PortIf.acknowledged, hs])) nofun
    | offline =>
      obtain ⟨-, -, -, hfault⟩ := hoffline hs
      simp [hfault, FaultRecord.occupied] at ho

/-- Settles O56: a second report fences where it fills the record, an acknowledgement undoes both, and a drop leaves its port OFFLINE
and empty. -/
theorem everyStepKeepsPortStatesLegal : Obligations.EveryStepKeepsPortStatesLegal :=
  fun _ _ h hstep => portStatesLegal_commandLaw.step hstep h

/-! ### Out-of-service ports absent (R168) -/

/-- A FENCED or OFFLINE port. -/
def PortIf.OutOfService (x : PortIf) : Prop := x.state = .fenced ∨ x.state = .offline

/-- Every port out of service is absent from the table's lists, but for those that the event at hand has fenced and whose teardown
follows (R157). -/
def State.AbsentBut (l : List Port) (s : State) : Prop := ∀ p, (s.port p).OutOfService → p ∈ l ∨ s.Absent p

/-- A change that keeps every port's state, and every port absent that is so, keeps the law. -/
theorem State.AbsentBut.of_absent {l : List Port} {s t : State} (h : s.AbsentBut l)
    (hstate : ∀ p, (t.port p).state = (s.port p).state) (habsent : ∀ p, s.Absent p → t.Absent p) : t.AbsentBut l := by
  intro p hp
  rw [PortIf.OutOfService, hstate] at hp
  exact (h p hp).imp_right (habsent p)

/-- A port of which one change is told: it comes into service, or was out of service before, or is one of the fenced. -/
theorem State.AbsentBut.modPort {l k : List Port} {s : State} (h : s.AbsentBut l) (p : Port) (f : PortIf → PortIf) (hk : l ⊆ k)
    (hf : (f (s.port p)).OutOfService → (s.port p).OutOfService ∨ p ∈ k) : (s.modPort p f).AbsentBut k := by
  intro q hq
  by_cases hqp : q = p
  · subst hqp
    rw [State.port_modPort_self] at hq
    obtain hout | hmem := hf hq
    · exact (h q hout).imp (fun hq => hk hq) id
    · exact .inl hmem
  · rw [State.port_modPort_of_ne _ _ _ _ hqp] at hq
    exact (h q hq).imp (fun hq => hk hq) id

theorem PortIf.outOfService_of_dropped {x : PortIf} (h : x.dropped.OutOfService) : x.OutOfService := h

theorem PortIf.outOfService_of_withdrawn {x : PortIf} (h : x.withdrawn.OutOfService) : x.OutOfService := h

/-- A report puts a port out of service only by fencing it (R156). -/
theorem PortIf.takeReport_outOfService (x : PortIf) (r : Report) (h : (x.takeReport r).OutOfService) :
    x.OutOfService ∨ x.fencedBy = true := by
  cases hf : x.fencedBy with
  | true => exact .inr rfl
  | false =>
    refine .inl ?_
    unfold PortIf.takeReport at h
    unfold PortIf.fencedBy at hf
    split at h <;> simp_all [PortIf.OutOfService]

theorem absentBut_eventLaw : EventLaw State.AbsentBut where
  congr hports ht hprst h := h.of_absent (fun p => by simp only [State.port, hports])
    fun p => (absent_eventLaw p).congr (l := []) hports ht hprst
  modPort p f hf h := h.modPort p f (List.Subset.refl _) fun hout => .inl (by rwa [PortIf.OutOfService, hf.state] at hout)
  modEntry e g hline hg h := h.of_absent (fun p => by rw [State.port_modEntry])
    fun p => (absent_eventLaw p).modEntry (l := []) e g hline hg
  setEntryWait hk h := h.of_absent (fun _ => rfl) fun p => (absent_eventLaw p).setEntryWait (l := []) hk
  setHandover hk h := h.of_absent (fun _ => rfl) fun p => (absent_eventLaw p).setHandover (l := []) hk
  setHeldLines q k hk h := h.of_absent (fun _ => rfl) fun p => (absent_eventLaw p).setHeldLines (l := []) q k hk
  freeEntry {_ s} e h := h.of_absent (TableWork.freeEntry s e).state fun p => (absent_eventLaw p).freeEntry (l := []) e
  report {l s} p r h := h.modPort p _ (List.subset_append_left ..) fun hout => by
    refine ((s.port p).takeReport_outOfService r hout).imp_right fun hfenced => ?_
    simp [State.report, hfenced]

theorem State.absent_teardown {s : State} {p q : Port} (h : q = p ∨ s.Absent q) : (s.teardown p).Absent q := by
  obtain rfl | habsent := h
  · exact s.teardown_absent q
  · exact (absent_eventLaw q).teardown (l := []) p habsent

/-- The teardowns that follow an event take every port off the lists that the event fenced (R157, R159). -/
theorem absent_foldl_teardown (l : List Port) (s : State) (p : Port) (h : p ∈ l ∨ s.Absent p) :
    (l.foldl State.teardown s).Absent p := by
  induction l generalizing s with
  | nil => simpa using h
  | cons q l ih =>
    rw [List.foldl_cons]
    rw [List.mem_cons, or_right_comm] at h
    exact ih (s.teardown q) (h.symm.imp_right State.absent_teardown)

theorem absentBut_settled {a : After} (h : a.Meets State.AbsentBut []) : a.settled.AbsentBut [] := by
  intro p hp
  rw [PortIf.OutOfService, (TableWork.settled a).state p] at hp
  exact .inr (absent_foldl_teardown a.fenced a.state p (h p hp))

theorem State.AbsentBut.drop {s : State} (h : s.AbsentBut []) (p : Port) : (s.drop p).AbsentBut [] := by
  have hoffline : (s.modPort p (fun x => { x with state := .offline })).AbsentBut [p] :=
    h.modPort p _ (List.nil_subset _) fun _ => .inr (List.mem_singleton_self p)
  have htorn : ((s.modPort p (fun x => { x with state := .offline })).teardown p).AbsentBut [] := by
    intro q hq
    rw [PortIf.OutOfService, (TableWork.teardown _ p).state q] at hq
    exact .inr (State.absent_teardown ((hoffline q hq).imp_left List.mem_singleton.mp))
  exact htorn.modPort p PortIf.dropped (List.Subset.refl _) fun hout => .inl (PortIf.outOfService_of_dropped hout)

theorem absentBut_commandLaw : CommandLaw State.AbsentBut where
  toEventLaw := absentBut_eventLaw
  fenced h := absentBut_settled h
  acceptance {s p} r _ h := h.modPort p _ (List.Subset.refl _) .inl
  delivery p h := h.modPort p _ (List.Subset.refl _) .inl
  refused {s p r _} o _ _ h := by
    unfold State.takeHead State.enterRefused
    rw [State.modPort_modPort]
    exact h.modPort p _ (List.Subset.refl _) .inl
  decided {s p r _} c _ ha _ h q hq := by
    by_cases hqp : q = p
    · subst hqp
      obtain ⟨hstate, -⟩ := State.decided_port (s := s) (p := q) r c
        ((s.takeHead q).stage q c (s.takeHead q).entryToTake)
      simp [PortIf.OutOfService, hstate, ha] at hq
    · rw [State.decided_port_of_ne hqp] at hq
      exact (h q hq).imp_right fun habsent =>
        (Spares.carryOut (s := s.takeHead p) (a := asked s p r c) hqp (State.stage_meant ..)).absent habsent
  reset _ _ _ _ _ p _ := .inr (State.absent_iff.mpr ⟨⟨fun e x hx => by
    simp [State.entry, State.resetWith, Interlock.reset] at hx, List.not_mem_nil, nofun⟩, by
    simp [State.heldLines, State.resetWith, Interlock.reset]⟩)
  resetDrop {s} p h := State.AbsentBut.drop (s := s.setPrst p true) h p
  resetRelease {s} p h := State.AbsentBut.modPort (s := s.setPrst p false) h p _ (List.Subset.refl _) fun hout => .inl <| by
    unfold PortIf.released at hout
    split at hout
    · exact .inr (And.left ‹_›)
    · exact hout
  acceptProfile {s p} f ha hf h := by
    have hset : (s.modPort p fun x =>
        { x with profile := f, state := stateAfterProfile x.state f.enabled (s.prst p) }).AbsentBut [] :=
      h.modPort p _ (List.Subset.refl _) fun hout => .inl <| by
        cases hs : (s.port p).state <;> simp_all [PortIf.OutOfService, stateAfterProfile]
    unfold State.acceptProfile
    split
    · exact hset.drop p
    · exact hset
  pause {s p} ha h := by
    have hset : (s.modPort p (fun x => { x with state := .paused })).AbsentBut [] :=
      h.modPort p _ (List.Subset.refl _) fun hout => by simp [PortIf.OutOfService] at hout
    have hleft : (State.leaveLists _ p).AbsentBut [] := absentBut_eventLaw.leaveLists p hset
    exact hleft.modPort p PortIf.withdrawn (List.Subset.refl _) fun hout => .inl (PortIf.outOfService_of_withdrawn hout)
  resume {s p} _ h := h.modPort p _ (List.Subset.refl _) fun hout => by simp [PortIf.OutOfService] at hout
  acknowledge {s p} _ h := h.modPort p _ (List.Subset.refl _) fun hout => .inl <| by
    cases hs : (s.port p).state <;> simp_all [PortIf.OutOfService, PortIf.acknowledged]

theorem State.outOfServiceAbsent_iff {s : State} : s.OutOfServiceAbsent ↔ s.AbsentBut [] := by
  simp [State.OutOfServiceAbsent, State.AbsentBut, PortIf.OutOfService]

/-- Settles O58: what is done for one port spares every absent one, and a port that goes out of service is torn down before the event is
over. -/
theorem everyStepKeepsOutOfServicePortsAbsent : Obligations.EveryStepKeepsOutOfServicePortsAbsent :=
  fun _ _ h hstep => State.outOfServiceAbsent_iff.mpr (absentBut_commandLaw.step hstep (State.outOfServiceAbsent_iff.mp h))

end Sys2Proof.Machine

/-! PROOF. What each command reaches: the settings, the frame and the pins change only at their own commands (O3, O53, O57), and the
memory port's list stays bounded (O55); then the laws at reset (O60), and the step itself (O1, O2). -/

namespace Sys2Proof.Machine

/-! ### The part's own work -/

namespace OwnWork

variable {s t : State}

theorem of_tableWork (h : TableWork s t) : OwnWork s t := of_eventWork (.of h)

/-- A change of the memory port that keeps its limit and pointer. -/
theorem setMem (h : OwnWork s t) (m : MemPort) (hl : m.limit = t.mem.limit) (hp : m.pointer = t.mem.pointer) :
    OwnWork s (t.setMem m) := h.trans (of_eventWork (.setMem t m hl hp))

theorem settle (h : OwnWork s t) : OwnWork s t.settle := by
  unfold State.settle
  split
  · split
    · exact h.setMem _ rfl rfl
    · exact h
  all_goals exact h

theorem setPhase (h : OwnWork s t) (p : Port) (f : OpPhase → OpPhase) : OwnWork s (t.setPhase p f) := by
  unfold State.setPhase
  split
  · exact h
  · exact h.tableWork (TableWork.setRecord ..)

theorem settled {a : After} (h : OwnWork s a.state) : OwnWork s a.settled := h.tableWork (TableWork.settled a)

theorem decideHead (s : State) (p : Port) (r : Request) : OwnWork s (s.decideHead p r).state := by
  have htaken : OwnWork s (s.takeHead p) := (refl s).modPort p _ fun _ => rfl
  have hreport : ∀ {t : State} (o : OutcomeCode), OwnWork s t → OwnWork s (t.reportOutcome p r o).state :=
    fun o h => h.trans (of_eventWork (EventWork.reportOutcome ..))
  unfold State.decideHead
  split
  case h_1 o _ => exact hreport o (htaken.modPort p _ fun _ => rfl)
  case h_2 c _ =>
    have hcarried := htaken.carryOut (asked s p r c) ((s.takeHead p).stage_meant p c (s.takeHead p).entryToTake)
    simp only [State.decideStage]
    cases hx : (s.takeHead p).stage p c (s.takeHead p).entryToTake
    all_goals rw [hx] at hcarried
    case refuse o => exact hreport o hcarried
    case unlock e => exact hcarried.tableWork (TableWork.freeEntry ..)
    all_goals exact hcarried

/-- A transfer joins the outstanding list. -/
theorem issue (h : OwnWork s t) (x : Transfer) (o : Origin) : OwnWork s (t.issue x o) := h.setMem _ rfl rfl

/-- A grant may move the pointer, and reaches no setting (R136). -/
theorem grantWork (s : State) (w : Work) : ∃ q, OwnWork (s.setPointer q) (s.grantWork w) := by
  cases w with
  | writeBack i rest =>
    exact ⟨s.mem.pointer, ((of_eventWork (.setWriteBack s rest)).setPhase _ _).issue _ _⟩
  | handover i rest =>
    obtain ⟨p, work, x⟩ := i
    have hleft : OwnWork s (s.setHandover rest) := of_tableWork (TableWork.setHandover ..)
    cases work with
    | request id use => exact ⟨s.mem.pointer, (hleft.tableWork (TableWork.setResp _ p id _)).issue _ _⟩
    | operationRead => exact ⟨s.mem.pointer, (hleft.setPhase p _).issue _ _⟩
  | entry p id use x =>
    exact ⟨p, ((of_tableWork (TableWork.setResp (s.setPointer p) p id .atMemory))).issue _ _⟩
  | operation p x =>
    refine ⟨p, issue (t := (s.setPhase p _).setPointer p) ?_ _ _⟩
    obtain ⟨hregions, hlink, hpins, hclock, hchoices, hpending, hlimit, -, hprofile⟩ :=
      (refl s).setPhase p (fun _ => .reading .outstanding)
    exact ⟨hregions, hlink, hpins, hclock, hchoices, hpending, hlimit, rfl, hprofile⟩

end OwnWork

/-! ### The commands that are the part's own work -/

/-- The commands that reach no setting, no pin and no frame: requests and responses, decisions, transfers, expiries. A grant reaches the
pointer as well. -/
def Instr.isOwn : Instr → Bool
  | .acceptance _ _ | .delivery _ | .decision _ | .transferAcceptance | .completion _ _ | .holdExpiry _ | .expiryDue _
  | .responseLimitExpiry => true
  | _ => false

theorem exec_ownWork {c : Instr} {s t : State} (hc : Instr.isOwn c = true) (hexec : exec c s = .next t) : OwnWork s t := by
  cases c
  case acceptance p r =>
    obtain rfl := Host.Outcome.next.inj hexec
    split; exacts [(OwnWork.refl s).modPort p _ fun _ => rfl, OwnWork.refl s]
  case delivery p =>
    obtain rfl := Host.Outcome.next.inj hexec
    split; exacts [(OwnWork.refl s).modPort p _ fun _ => rfl, OwnWork.refl s]
  case decision p =>
    obtain rfl := Host.Outcome.next.inj hexec
    split
    · exact OwnWork.refl s
    · split; exacts [(OwnWork.decideHead s p _).settled, OwnWork.refl s]
  case transferAcceptance =>
    obtain rfl := Host.Outcome.next.inj hexec
    exact (OwnWork.refl s).setMem _ rfl rfl
  case completion status data =>
    obtain rfl := Host.Outcome.next.inj hexec
    split
    · exact OwnWork.of_eventWork (EventWork.settled (EventWork.completeFront ..))
    all_goals exact OwnWork.refl s
  case holdExpiry e =>
    obtain rfl := Host.Outcome.next.inj hexec
    split; exacts [OwnWork.of_eventWork (EventWork.settled (EventWork.expire ..)), OwnWork.refl s]
  case expiryDue e =>
    obtain rfl := Host.Outcome.next.inj hexec
    split; exacts [OwnWork.of_tableWork (TableWork.setWork ..), OwnWork.refl s]
  case responseLimitExpiry =>
    obtain rfl := Host.Outcome.next.inj hexec
    split; exacts [OwnWork.of_eventWork (EventWork.settled (EventWork.goDown ..)), OwnWork.refl s]
  all_goals cases hc

theorem exec_grant_ownWork {s t : State} (hexec : exec .grant s = .next t) : ∃ q, OwnWork (s.setPointer q) t := by
  obtain rfl := Host.Outcome.next.inj hexec
  have hself : OwnWork (s.setPointer s.mem.pointer) s := OwnWork.refl s
  split
  · split; exacts [⟨_, hself⟩, OwnWork.grantWork s _]
  · exact ⟨_, hself⟩

/-! ### The maintenance commands at their points of effect -/

theorem State.drop_ownWork (s : State) (p : Port) : OwnWork s (s.drop p) :=
  (((OwnWork.refl s).modPort p (fun x => { x with state := .offline }) fun _ => rfl).tableWork
    (TableWork.teardown ..)).modPort p PortIf.dropped fun _ => rfl

/-- WRITE-PROFILE writes the profile that it accepts, and reaches no other setting. -/
theorem State.writeProfile_ownWork (s : State) (p : Port) (args : List Byte) : OwnWork s (s.writeProfile p args).1 ∨
    profileAcceptable args = true ∧
      OwnWork (s.modPort p (fun x => { x with profile := profileArg args })) (s.writeProfile p args).1 := by
  unfold State.writeProfile
  split
  · exact .inl (OwnWork.refl s)
  · split
    · exact .inl (OwnWork.refl s)
    · split
      · exact .inl (OwnWork.refl s)
      · refine .inr ⟨by simpa using ‹¬ profileAcceptable args = false›, ?_⟩
        have hset : OwnWork (s.modPort p (fun x => { x with profile := profileArg args })) (s.modPort p (fun x => { x with
            profile := profileArg args, state := stateAfterProfile x.state (profileArg args).enabled (s.prst p) })) := by
          refine ⟨rfl, rfl, rfl, rfl, rfl, rfl, rfl, rfl, fun q => ?_⟩
          rw [State.port_modPort, State.port_modPort]
          split <;> rfl
        unfold State.acceptProfile
        dsimp only
        split
        · exact hset.trans (State.drop_ownWork ..)
        · exact hset

theorem State.pausePort_ownWork (s : State) (p : Port) : OwnWork s (s.pausePort p).1 := by
  unfold State.pausePort
  split
  · exact (((OwnWork.refl s).modPort p (fun x => { x with state := .paused }) fun _ => rfl).tableWork
      (TableWork.leaveLists ..)).modPort p PortIf.withdrawn fun _ => rfl
  all_goals exact OwnWork.refl s

theorem State.resumePort_ownWork (s : State) (p : Port) : OwnWork s (s.resumePort p).1 := by
  unfold State.resumePort
  split
  · exact (OwnWork.refl s).modPort p (fun x => { x with state := .active }) fun _ => rfl
  all_goals exact OwnWork.refl s

theorem State.ackFault_ownWork (s : State) (p : Port) : OwnWork s (s.ackFault p).1 := by
  unfold State.ackFault
  split
  · exact (OwnWork.refl s).modPort p _ fun _ => rfl
  · exact OwnWork.refl s

/-- WRITE-REGION writes a region whose base is no greater than its limit, if it is valid. -/
theorem State.writeRegion_ownWork (s : State) (g : RegionIx) (r : Region) : OwnWork s (s.writeRegion g r).1 ∨
    (r.valid = true → r.base ≤ r.limit) ∧ OwnWork (s.setRegion g r) (s.writeRegion g r).1 := by
  unfold State.writeRegion
  split
  · exact .inl (OwnWork.refl s)
  · split
    · exact .inl (OwnWork.refl s)
    · exact .inr ⟨fun hv => by simpa [hv] using ‹¬ (r.valid = true ∧ r.limit < r.base)›, OwnWork.refl _⟩

theorem State.breakLock_ownWork (s : State) (e : EntryIx) : OwnWork s (s.breakLock e).1 := by
  unfold State.breakLock
  split
  · exact OwnWork.of_tableWork ((TableWork.changeHeld ..).trans (TableWork.freeEntry ..))
  all_goals exact OwnWork.refl s

theorem State.setResponseLimit_ownWork (s : State) (v : Byte) : OwnWork s (s.setResponseLimit v).1 ∨
    v ≠ 0 ∧ OwnWork (s.setMem { s.mem with limit := v }) (s.setResponseLimit v).1 := by
  unfold State.setResponseLimit
  split
  · exact .inl (OwnWork.refl s)
  · split
    · exact .inl (OwnWork.refl s)
    · exact .inr ⟨‹_›, OwnWork.refl _⟩

theorem State.recoverMemory_ownWork (s : State) : OwnWork s s.recoverMemory.1 := by
  unfold State.recoverMemory
  split
  · exact ((OwnWork.refl s).setMem { s.mem with state := .settling } rfl rfl).settle
  all_goals exact OwnWork.refl s

/-! ### What each command leaves -/

/-- What command `c` leaves in every case: the model's own fields, and each setting that is not its to write (R18, R19, R28, R32, R136,
R139). -/
structure CommandFrame (c : Instr) (s t : State) : Prop where
  clock   : t.clock = s.clock
  choices : t.choices = s.choices
  pending : t.pending = s.pending
  regions : (∀ d, c ≠ .deviceReset d) → (∀ b, c ≠ .writeRegion b) → t.regions = s.regions
  profile : (∀ d, c ≠ .deviceReset d) → (∀ b, c ≠ .writeProfile b) → ∀ p, (t.port p).profile = (s.port p).profile
  limit   : (∀ d, c ≠ .deviceReset d) → (∀ b, c ≠ .setResponseLimit b) → t.mem.limit = s.mem.limit
  pointer : (∀ d, c ≠ .deviceReset d) → c ≠ .grant → t.mem.pointer = s.mem.pointer

namespace CommandFrame

variable {c : Instr} {s t : State}

theorem of_ownWork (h : OwnWork s t) : CommandFrame c s t :=
  ⟨h.clock, h.choices, h.pending, fun _ _ => h.regions, fun _ _ => h.profile, fun _ _ => h.limit, fun _ _ => h.pointer⟩

theorem refl (c : Instr) (s : State) : CommandFrame c s s := of_ownWork (OwnWork.refl s)

theorem setLink (h : CommandFrame c s t) (f : Frame) : CommandFrame c s (t.setLink f) :=
  ⟨h.clock, h.choices, h.pending, h.regions, h.profile, h.limit, h.pointer⟩

theorem setPins (h : CommandFrame c s t) (x : Pins) : CommandFrame c s (t.setPins x) :=
  ⟨h.clock, h.choices, h.pending, h.regions, h.profile, h.limit, h.pointer⟩

theorem ownWork {u : State} (h : CommandFrame c s t) (k : OwnWork t u) : CommandFrame c s u :=
  ⟨k.clock.trans h.clock, k.choices.trans h.choices, k.pending.trans h.pending, fun hd hb => k.regions.trans (h.regions hd hb),
    fun hd hb p => (k.profile p).trans (h.profile hd hb p), fun hd hb => k.limit.trans (h.limit hd hb),
    fun hd hg => k.pointer.trans (h.pointer hd hg)⟩

theorem atLastArgument (m : MaintCommand) (b : Byte) {run : List Byte → State → State × Reply}
    (hrun : ∀ args, CommandFrame c s (run args s).1) : CommandFrame c s (s.atLastArgument m b run) :=
  State.atLastArgument_keeps b m (fun _ _ h => h.setLink _) hrun (refl c s)

theorem atCommandByte {run : State → State × Reply} (hrun : CommandFrame c s (run s).1) : CommandFrame c s (s.atCommandByte run) :=
  State.atCommandByte_keeps (fun _ _ h => h.setLink _) hrun (refl c s)

theorem writeProfile (b : Byte) (p : Port) (args : List Byte) : CommandFrame (.writeProfile b) s (s.writeProfile p args).1 := by
  obtain h | ⟨-, h⟩ := s.writeProfile_ownWork p args
  · exact of_ownWork h
  · have hset : CommandFrame (.writeProfile b) s (s.modPort p (fun x => { x with profile := profileArg args })) :=
      ⟨rfl, rfl, rfl, fun _ _ => rfl, fun _ hb => absurd rfl (hb b), fun _ _ => rfl, fun _ _ => rfl⟩
    exact hset.ownWork h

theorem writeRegion (b : Byte) (g : RegionIx) (r : Region) : CommandFrame (.writeRegion b) s (s.writeRegion g r).1 := by
  obtain h | ⟨-, h⟩ := s.writeRegion_ownWork g r
  · exact of_ownWork h
  · have hset : CommandFrame (.writeRegion b) s (s.setRegion g r) :=
      ⟨rfl, rfl, rfl, fun _ hb => absurd rfl (hb b), fun _ _ _ => rfl, fun _ _ => rfl, fun _ _ => rfl⟩
    exact hset.ownWork h

theorem setResponseLimit (b : Byte) (v : Byte) : CommandFrame (.setResponseLimit b) s (s.setResponseLimit v).1 := by
  obtain h | ⟨-, h⟩ := s.setResponseLimit_ownWork v
  · exact of_ownWork h
  · have hset : CommandFrame (.setResponseLimit b) s (s.setMem { s.mem with limit := v }) :=
      ⟨rfl, rfl, rfl, fun _ _ => rfl, fun _ _ _ => rfl, fun _ hb => absurd rfl (hb b), fun _ _ => rfl⟩
    exact hset.ownWork h

theorem grant (hexec : exec .grant s = .next t) : CommandFrame .grant s t := by
  obtain ⟨q, h⟩ := exec_grant_ownWork hexec
  exact ⟨h.clock, h.choices, h.pending, fun _ _ => h.regions, fun _ _ => h.profile, fun _ _ => h.limit, fun _ hg => absurd rfl hg⟩

theorem reset (d : Bool) (pins : Pins) :
    CommandFrame (.deviceReset d) s (State.resetWith pins s.wire s.clock s.choices s.pending) :=
  ⟨rfl, rfl, rfl, fun hd => absurd rfl (hd d), fun hd => absurd rfl (hd d), fun hd => absurd rfl (hd d), fun hd => absurd rfl (hd d)⟩

end CommandFrame

/-- Every command leaves its frame. -/
theorem exec_frame {c : Instr} {s t : State} (hexec : exec c s = .next t) : CommandFrame c s t := by
  by_cases hown : Instr.isOwn c = true
  · exact .of_ownWork (exec_ownWork hown hexec)
  · have hrefl := CommandFrame.refl c s
    cases c
    case acceptance | delivery | decision | transferAcceptance | completion | holdExpiry | expiryDue | responseLimitExpiry =>
      exact absurd rfl hown
    case grant => exact .grant hexec
    all_goals obtain rfl := Host.Outcome.next.inj hexec
    case passageToUp memIdle => exact (hrefl.setPins _).ownWork (OwnWork.refl _).settle
    case deviceReset d => exact (CommandFrame.reset d _).ownWork (OwnWork.refl _).settle
    case prstNAsserted p => split; exacts [hrefl, (hrefl.setPins _).ownWork (State.drop_ownWork ..)]
    case prstNDeasserted p =>
      split
      · refine (hrefl.setPins _).ownWork ((OwnWork.refl _).modPort p _ fun x => ?_)
        unfold PortIf.released
        split <;> rfl
      · exact hrefl
    case mcsNFalling => split; exacts [hrefl, (hrefl.setPins _).setLink _]
    case mcsNRising => split; exacts [(hrefl.setPins _).setLink _, hrefl]
    case badCommand b => split; exacts [hrefl.setLink _, hrefl]
    case readStatus => exact .atCommandByte hrefl
    case readPort b => exact .atLastArgument _ b fun _ => State.withPort_keeps _ (fun _ => hrefl) hrefl
    case readRegion b => exact .atLastArgument _ b fun _ => State.withRegion_keeps _ (fun _ => hrefl) hrefl
    case readLock b => exact .atLastArgument _ b fun _ => State.withEntry_keeps _ (fun _ => hrefl) hrefl
    case readMemoryPort => exact .atCommandByte hrefl
    case writeProfile b => exact .atLastArgument _ b fun args => State.withPort_keeps _ (fun p => .writeProfile b p args) hrefl
    case pausePort b => exact .atLastArgument _ b fun _ => State.withPort_keeps _ (fun p => .of_ownWork (s.pausePort_ownWork p)) hrefl
    case resumePort b => exact .atLastArgument _ b fun _ => State.withPort_keeps _ (fun p => .of_ownWork (s.resumePort_ownWork p)) hrefl
    case ackFault b => exact .atLastArgument _ b fun _ => State.withPort_keeps _ (fun p => .of_ownWork (s.ackFault_ownWork p)) hrefl
    case writeRegion b => exact .atLastArgument _ b fun _ => State.withRegion_keeps _ (fun g => .writeRegion b g _) hrefl
    case breakLock b => exact .atLastArgument _ b fun _ => State.withEntry_keeps _ (fun e => .of_ownWork (s.breakLock_ownWork e)) hrefl
    case setResponseLimit b => exact .atLastArgument _ b fun _ => .setResponseLimit b _
    case recoverMemory => exact .atCommandByte (.of_ownWork s.recoverMemory_ownWork)
    case byteReceived b => split; exacts [hrefl, hrefl.setLink _]

/-- No arm of the dispatch stops. -/
theorem exec_goes_on (c : Instr) (s : State) : ∃ t, exec c s = .next t := by
  cases c <;> exact ⟨_, rfl⟩

/-- Settles O3: each arm answers a next state, and the model's own fields are in the frame of every command. -/
theorem everyCommandGoesOn : Obligations.EveryCommandGoesOn := by
  intro c s
  obtain ⟨t, ht⟩ := exec_goes_on c s
  have hframe := exec_frame ht
  exact ⟨t, ht, hframe.pending, hframe.clock, hframe.choices⟩

/-- Settles O53: a setting is in the frame of every command but its own and the device reset. -/
theorem settingsChangeOnlyByTheirCommands : Obligations.SettingsChangeOnlyByTheirCommands := by
  intro c s t hexec hreset
  have hframe := exec_frame hexec
  exact ⟨hframe.regions hreset, hframe.profile hreset, hframe.limit hreset, hframe.pointer hreset⟩

/-! ### The frame legal (R173, R176, R177, R178) -/

/-- The phases after a byte that reaches no point of effect, within their bounds (R175, R176, R177). -/
theorem Frame.received_eq_some {f g : Frame} {b : Byte} (h : f.received b = some g) :
    (∃ c got, g = .arguments c got ∧ got.length < c.argCount) ∨ (∃ bytes sent, g = .reply bytes sent ∧ sent < bytes.length) ∨
      g = .trailing := by
  unfold Frame.received at h
  split at h
  case h_1 | h_2 | h_3 => cases h
  case h_4 =>
    split at h
    · cases h
    · split at h
      · cases h
      · cases h
        exact .inl ⟨_, _, rfl, Nat.pos_of_ne_zero ‹_›⟩
  case h_5 =>
    split at h
    · cases h
      exact .inl ⟨_, _, rfl, by simpa using ‹_ < _›⟩
    · cases h
  case h_6 =>
    cases h
    split
    · exact .inr (.inl ⟨_, _, rfl, ‹_›⟩)
    · exact .inr (.inr rfl)

/-- The pins are those of `s`. -/
def pinsOf (s t : State) : Prop := t.pins = s.pins

theorem State.writeProfile_pins (s : State) (p : Port) (args : List Byte) : pinsOf s (s.writeProfile p args).1 := by
  obtain hwork | ⟨-, hwork⟩ := s.writeProfile_ownWork p args
  all_goals exact hwork.pins

theorem State.writeRegion_pins (s : State) (g : RegionIx) (r : Region) : pinsOf s (s.writeRegion g r).1 := by
  obtain hwork | ⟨-, hwork⟩ := s.writeRegion_ownWork g r
  all_goals exact hwork.pins

theorem State.setResponseLimit_pins (s : State) (v : Byte) : pinsOf s (s.setResponseLimit v).1 := by
  obtain hwork | ⟨-, hwork⟩ := s.setResponseLimit_ownWork v
  all_goals exact hwork.pins

namespace State.FrameLegal

variable {s t : State}

theorem congr (h : s.FrameLegal) (hl : t.link = s.link) (hm : t.pins.mcs = s.pins.mcs) : t.FrameLegal := by
  rw [State.FrameLegal, hl, hm]
  exact h

theorem ownWork (h : s.FrameLegal) (k : OwnWork s t) : t.FrameLegal := h.congr k.link (congrArg Pins.mcs k.pins)

/-- A reply is built whole with its first byte still to send (R177). -/
theorem enterReply (hmcs : t.pins.mcs = true) (r : Reply) : (t.enterReply r).FrameLegal := by
  refine ⟨?_, nofun, fun bytes sent hlink => ?_⟩
  · simp [State.enterReply, hmcs]
  · cases hlink
    exact Nat.succ_pos _

theorem mcs_of_link (h : s.FrameLegal) (hl : s.link ≠ .idle) : s.pins.mcs = true := by
  simpa using fun hm => hl (h.1.mpr hm)

theorem atLastArgument (h : s.FrameLegal) (m : MaintCommand) (b : Byte) {run : List Byte → State → State × Reply}
    (hrun : ∀ args, (run args s).1.pins = s.pins) : (s.atLastArgument m b run).FrameLegal := by
  unfold State.atLastArgument
  split
  case h_1 => exact h
  case h_2 args hargs =>
    refine enterReply ?_ _
    rw [hrun]
    exact h.mcs_of_link fun hidle => by simp [hidle, Frame.lastArgument] at hargs

theorem atCommandByte (h : s.FrameLegal) {run : State → State × Reply} (hrun : (run s).1.pins = s.pins) :
    (s.atCommandByte run).FrameLegal := by
  unfold State.atCommandByte
  split
  case isTrue hlink =>
    refine enterReply ?_ _
    rw [hrun]
    exact h.mcs_of_link (by simp [hlink])
  case isFalse => exact h

/-- A frame that goes on, within the bounds of its phase. -/
theorem received (h : s.FrameLegal) {b : Byte} {f : Frame} (hf : s.link.received b = some f) : (s.setLink f).FrameLegal := by
  have hmcs : s.pins.mcs = true := h.mcs_of_link fun hidle => by simp [hidle, Frame.received] at hf
  obtain ⟨c, got, rfl, hlen⟩ | ⟨bytes, sent, rfl, hlen⟩ | rfl := Frame.received_eq_some hf
  · exact ⟨by simp [hmcs], fun c' got' hl => by cases hl; exact hlen, nofun⟩
  · exact ⟨by simp [hmcs], nofun, fun bytes' sent' hl => by cases hl; exact hlen⟩
  · exact ⟨by simp [hmcs], nofun, nofun⟩

/-- A phase with no bounds, IDLE exactly at the level of MCS_N. -/
theorem setLink_setMcs {f : Frame} {level : Bool} (hf : f = .idle ∧ level = false ∨ f = .command ∧ level = true) :
    ((s.setMcs level).setLink f).FrameLegal := by
  obtain ⟨rfl, rfl⟩ | ⟨rfl, rfl⟩ := hf
  all_goals exact ⟨by simp [State.setMcs], nofun, nofun⟩

theorem exec {c : Instr} (hexec : exec c s = .next t) (h : s.FrameLegal) : t.FrameLegal := by
  by_cases hown : Instr.isOwn c = true
  · exact h.ownWork (exec_ownWork hown hexec)
  · cases c
    case acceptance | delivery | decision | transferAcceptance | completion | holdExpiry | expiryDue | responseLimitExpiry =>
      exact absurd rfl hown
    case grant =>
      obtain ⟨q, hwork⟩ := exec_grant_ownWork hexec
      exact ownWork (s := s.setPointer q) h hwork
    all_goals obtain rfl := Host.Outcome.next.inj hexec
    case passageToUp memIdle =>
      exact ownWork (s := s.setPins { s.pins with memIdle := memIdle }) h (OwnWork.refl _).settle
    case deviceReset d =>
      refine ownWork ?_ (OwnWork.refl _).settle
      cases hm : s.pins.mcs <;>
        simp [FrameLegal, State.resetWith, Frame.reset, hm]
    case prstNAsserted p => split; exacts [h, ownWork (s := s.setPrst p true) h (State.drop_ownWork ..)]
    case prstNDeasserted p => split; exacts [h.congr rfl rfl, h]
    case mcsNFalling =>
      split
      case isTrue => exact h
      case isFalse hm =>
        have hidle : s.link = .idle := h.1.mpr (by simpa using hm)
        exact setLink_setMcs (.inr ⟨by rw [hidle]; rfl, rfl⟩)
    case mcsNRising => split; exacts [setLink_setMcs (.inl ⟨rfl, rfl⟩), h]
    case badCommand b =>
      split
      case isTrue hc => exact enterReply (h.mcs_of_link (by simp [hc.1])) _
      case isFalse => exact h
    case readStatus => exact h.atCommandByte rfl
    case readPort b => exact h.atLastArgument _ b fun _ => State.withPort_keeps (P := pinsOf s) _ (fun _ => rfl) rfl
    case readRegion b => exact h.atLastArgument _ b fun _ => State.withRegion_keeps (P := pinsOf s) _ (fun _ => rfl) rfl
    case readLock b => exact h.atLastArgument _ b fun _ => State.withEntry_keeps (P := pinsOf s) _ (fun _ => rfl) rfl
    case readMemoryPort => exact h.atCommandByte rfl
    case writeProfile b =>
      exact h.atLastArgument _ b fun args => State.withPort_keeps (P := pinsOf s) _ (fun p => s.writeProfile_pins p args) rfl
    case pausePort b =>
      exact h.atLastArgument _ b fun _ => State.withPort_keeps (P := pinsOf s) _ (fun p => (s.pausePort_ownWork p).pins) rfl
    case resumePort b =>
      exact h.atLastArgument _ b fun _ => State.withPort_keeps (P := pinsOf s) _ (fun p => (s.resumePort_ownWork p).pins) rfl
    case ackFault b =>
      exact h.atLastArgument _ b fun _ => State.withPort_keeps (P := pinsOf s) _ (fun p => (s.ackFault_ownWork p).pins) rfl
    case writeRegion b =>
      exact h.atLastArgument _ b fun _ => State.withRegion_keeps (P := pinsOf s) _ (fun g => s.writeRegion_pins g _) rfl
    case breakLock b =>
      exact h.atLastArgument _ b fun _ => State.withEntry_keeps (P := pinsOf s) _ (fun e => (s.breakLock_ownWork e).pins) rfl
    case setResponseLimit b => exact h.atLastArgument _ b fun _ => s.setResponseLimit_pins _
    case recoverMemory => exact h.atCommandByte s.recoverMemory_ownWork.pins
    case byteReceived b => split; exacts [h, h.received ‹_›]

end State.FrameLegal

/-! ### The settings legal (R18, R20, R28, R148) -/

/-- What R20 demands of a profile. -/
def Profile.Legal (f : Profile) : Prop := (f.lockLimit = 1 ∨ f.lockLimit = 2) ∧ f.holdLimit ≠ 0

theorem profileArg_legal {args : List Byte} (h : profileAcceptable args = true) : (profileArg args).Legal := by
  simp only [profileAcceptable, Bool.and_eq_true, Bool.or_eq_true, beq_iff_eq, bne_iff_ne] at h
  obtain ⟨⟨hhold, hlock⟩, -⟩ := h
  exact ⟨hlock, hhold⟩

theorem Profile.reset_legal (defcfg : Bool) : (Profile.reset defcfg).Legal := by
  cases defcfg <;> exact ⟨by decide, by decide⟩

namespace State.SettingsLegal

variable {s t : State}

theorem ownWork (h : s.SettingsLegal) (k : OwnWork s t) : t.SettingsLegal := by
  obtain ⟨hregions, hprofiles, hlimit⟩ := h
  refine ⟨by rw [k.regions]; exact hregions, fun p => ?_, by rw [k.limit]; exact hlimit⟩
  rw [k.profile]
  exact hprofiles p

theorem writeProfile (h : s.SettingsLegal) (p : Port) (args : List Byte) : (s.writeProfile p args).1.SettingsLegal := by
  obtain hwork | ⟨haccepted, hwork⟩ := s.writeProfile_ownWork p args
  · exact h.ownWork hwork
  · obtain ⟨hregions, hprofiles, hlimit⟩ := h
    refine ownWork (s := s.modPort p fun x => { x with profile := profileArg args }) ⟨hregions, ?_, hlimit⟩ hwork
    exact State.forall_port_modPort (P := fun _ x => x.profile.Legal) hprofiles p
      (fun x => { x with profile := profileArg args }) (profileArg_legal haccepted)

theorem writeRegion (h : s.SettingsLegal) (g : RegionIx) (r : Region) : (s.writeRegion g r).1.SettingsLegal := by
  obtain hwork | ⟨hvalid, hwork⟩ := s.writeRegion_ownWork g r
  · exact h.ownWork hwork
  · obtain ⟨hregions, hprofiles, hlimit⟩ := h
    refine ownWork (s := s.setRegion g r) ⟨fun i => ?_, hprofiles, hlimit⟩ hwork
    by_cases hi : i = g
    · subst hi; simpa [State.setRegion] using hvalid
    · simpa [State.setRegion, Fin.val_inj, Ne.symm hi] using hregions i

theorem setResponseLimit (h : s.SettingsLegal) (v : Byte) : (s.setResponseLimit v).1.SettingsLegal := by
  obtain hwork | ⟨hv, hwork⟩ := s.setResponseLimit_ownWork v
  · exact h.ownWork hwork
  · obtain ⟨hregions, hprofiles, -⟩ := h
    exact ownWork (s := s.setMem { s.mem with limit := v }) ⟨hregions, hprofiles, hv⟩ hwork

theorem resetWith (pins : Pins) (wire : List (Option Bool)) (clock : Clock) (choices : Nat) (pending : List Instr) :
    (State.resetWith pins wire clock choices pending).SettingsLegal := by
  refine ⟨fun g => ?_, fun p => ?_, by simp [State.resetWith, MemPort.reset]⟩
  · have hblank : ∀ i : RegionIx, (Vector.replicate 16 Region.blank)[i] = Region.blank := fun i => by simp
    by_cases hg : g = 0
    · subst hg
      cases hd : pins.defcfg <;> simp [State.resetWith, regionsReset, hd, Region.wholeSpace, Region.blank]
    · have hval : (0 : Nat) ≠ g.val := fun h => hg (Fin.ext h.symm)
      cases hd : pins.defcfg <;> simp [State.resetWith, regionsReset, hd, hval, Region.blank]
  · rw [State.port_resetWith]
    exact Profile.reset_legal _

theorem exec {c : Instr} (hexec : exec c s = .next t) (h : s.SettingsLegal) : t.SettingsLegal := by
  have hreply : ∀ (u : State) (r : Reply), u.SettingsLegal → (u.enterReply r).SettingsLegal := fun _ _ h => h
  by_cases hown : Instr.isOwn c = true
  · exact h.ownWork (exec_ownWork hown hexec)
  · cases c
    case acceptance | delivery | decision | transferAcceptance | completion | holdExpiry | expiryDue | responseLimitExpiry =>
      exact absurd rfl hown
    case grant =>
      obtain ⟨q, hwork⟩ := exec_grant_ownWork hexec
      exact ownWork (s := s.setPointer q) h hwork
    all_goals obtain rfl := Host.Outcome.next.inj hexec
    case passageToUp memIdle =>
      exact ownWork (s := s.setPins { s.pins with memIdle := memIdle }) h (OwnWork.refl _).settle
    case deviceReset d => exact (resetWith ..).ownWork (OwnWork.refl _).settle
    case prstNAsserted p => split; exacts [h, ownWork (s := s.setPrst p true) h (State.drop_ownWork ..)]
    case prstNDeasserted p =>
      split
      · refine ownWork (s := s.setPrst p false) h ((OwnWork.refl _).modPort p _ fun x => ?_)
        unfold PortIf.released
        split <;> rfl
      · exact h
    case mcsNFalling => split; exacts [h, h]
    case mcsNRising => split; exacts [h, h]
    case badCommand b => split; exacts [h, h]
    case readStatus => exact State.atCommandByte_keeps hreply h h
    case readPort b => exact State.atLastArgument_keeps b _ hreply (fun _ => State.withPort_keeps _ (fun _ => h) h) h
    case readRegion b => exact State.atLastArgument_keeps b _ hreply (fun _ => State.withRegion_keeps _ (fun _ => h) h) h
    case readLock b => exact State.atLastArgument_keeps b _ hreply (fun _ => State.withEntry_keeps _ (fun _ => h) h) h
    case readMemoryPort => exact State.atCommandByte_keeps hreply h h
    case writeProfile b =>
      exact State.atLastArgument_keeps b _ hreply (fun args => State.withPort_keeps _ (fun p => h.writeProfile p args) h) h
    case pausePort b =>
      exact State.atLastArgument_keeps b _ hreply
        (fun _ => State.withPort_keeps _ (fun p => h.ownWork (s.pausePort_ownWork p)) h) h
    case resumePort b =>
      exact State.atLastArgument_keeps b _ hreply
        (fun _ => State.withPort_keeps _ (fun p => h.ownWork (s.resumePort_ownWork p)) h) h
    case ackFault b =>
      exact State.atLastArgument_keeps b _ hreply
        (fun _ => State.withPort_keeps _ (fun p => h.ownWork (s.ackFault_ownWork p)) h) h
    case writeRegion b =>
      exact State.atLastArgument_keeps b _ hreply (fun _ => State.withRegion_keeps _ (fun g => h.writeRegion g _) h) h
    case breakLock b =>
      exact State.atLastArgument_keeps b _ hreply
        (fun _ => State.withEntry_keeps _ (fun e => h.ownWork (s.breakLock_ownWork e)) h) h
    case setResponseLimit b => exact State.atLastArgument_keeps b _ hreply (fun _ => h.setResponseLimit _) h
    case recoverMemory => exact State.atCommandByte_keeps hreply (h.ownWork s.recoverMemory_ownWork) h
    case byteReceived b => split; exacts [h, h]

end State.SettingsLegal

/-- Settles O57: the frame moves within the bounds of its phases, and a setting is written only after its judgement. -/
theorem everyStepKeepsFramesAndSettingsLegal : Obligations.EveryStepKeepsFramesAndSettingsLegal := by
  intro s t hframe hsettings hstep
  refine ⟨?frame, ?settings⟩
  case frame =>
    exact step_keeps (fun s h => h.congr s.link_tick (congrArg Pins.mcs s.pins_tick)) (fun _ _ _ h => h)
      (fun _ _ _ hexec h => h.exec hexec) hstep hframe
  case settings =>
    refine step_keeps (fun s h => ?_) (fun _ _ _ h => h) (fun _ _ _ hexec h => h.exec hexec) hstep hsettings
    obtain ⟨hregions, hprofiles, hlimit⟩ := h
    refine ⟨by rw [s.regions_tick]; exact hregions, fun p => by rw [s.port_tick]; exact hprofiles p, ?_⟩
    rw [s.mem_tick]
    exact hlimit

end Sys2Proof.Machine

/-! PROOF. The outstanding list bounded (O55), the laws at reset (O39, O60), and the step itself (O1, O2). -/

namespace Sys2Proof.Machine

/-! ### The memory port through each command (R132) -/

theorem carryOut_mem (a : Asking) {avail : Option EntryIx} {r : StageResult} (s : State)
    (hr : r.Meant s a.port a.checked avail) : (a.carryOut r s).mem = s.mem := by
  have law : StageLaw a.port (fun t => t.mem = s.mem) :=
    { modPort := fun _ _ h => h
      setRecord := fun _ h => h
      setHeldLines := fun _ h => h
      setHandover := fun _ _ h => h
      park := fun _ h => (TableWork.setWaiters ..).mem.trans h
      takeEntry := fun _ _ _ _ h => h
      changeWork := fun e x g hx _ h => by rw [State.modEntry_of_some _ hx]; exact h }
  exact law.carryOut_of_setEntryWait (fun _ h => h) hr rfl

theorem decideHead_mem (s : State) (p : Port) (r : Request) : (s.decideHead p r).state.mem = s.mem := by
  have hreport : ∀ (t : State) o, (t.reportOutcome p r o).state.mem = t.mem := by
    intro t o
    unfold State.reportOutcome
    split <;> rfl
  unfold State.decideHead
  split
  case h_1 o _ => exact hreport _ o
  case h_2 c _ =>
    have hcarried := carryOut_mem (asked s p r c) (s.takeHead p) ((s.takeHead p).stage_meant p c (s.takeHead p).entryToTake)
    simp only [State.decideStage]
    cases hx : (s.takeHead p).stage p c (s.takeHead p).entryToTake
    all_goals rw [hx] at hcarried
    case refuse o => exact (hreport _ o).trans hcarried
    case unlock e => exact (TableWork.freeEntry ..).mem.trans hcarried
    all_goals exact hcarried

theorem settled_mem (a : After) : a.settled.mem = a.state.mem := (TableWork.settled a).mem

theorem setPhase_mem (s : State) (p : Port) (f : OpPhase → OpPhase) : (s.setPhase p f).mem = s.mem := by
  unfold State.setPhase
  split <;> rfl

theorem grantWork_mem (s : State) (w : Work) : ∃ i, (s.grantWork w).mem.state = s.mem.state ∧
    (s.grantWork w).mem.outstanding = s.mem.outstanding ++ [i] := by
  have hissue : ∀ (u : State) x o, u.mem.state = s.mem.state ∧ u.mem.outstanding = s.mem.outstanding →
      ∃ i, (u.issue x o).mem.state = s.mem.state ∧ (u.issue x o).mem.outstanding = s.mem.outstanding ++ [i] :=
    fun _ _ _ ⟨hstate, hout⟩ => ⟨_, hstate, congrArg (· ++ [_]) hout⟩
  have hphase : ∀ (u : State) p f, u.mem = s.mem →
      (u.setPhase p f).mem.state = s.mem.state ∧ (u.setPhase p f).mem.outstanding = s.mem.outstanding :=
    fun u p f hu => by rw [setPhase_mem, hu]; exact ⟨rfl, rfl⟩
  cases w with
  | writeBack i rest => exact hissue _ _ _ (hphase _ _ _ rfl)
  | handover i rest =>
    obtain ⟨p, work, x⟩ := i
    cases work with
    | request id use => exact hissue _ _ _ ⟨rfl, rfl⟩
    | operationRead => exact hissue _ _ _ (hphase _ _ _ rfl)
  | entry p id use x => exact hissue _ _ _ ⟨rfl, rfl⟩
  | operation p x => exact hissue (State.setPointer _ p) _ _ (hphase _ _ _ rfl)

theorem drop_mem (s : State) (p : Port) : (s.drop p).mem = s.mem := by
  unfold State.drop
  rw [State.mem_modPort, (TableWork.teardown _ p).mem, State.mem_modPort]

theorem writeProfile_mem (s : State) (p : Port) (args : List Byte) : (s.writeProfile p args).1.mem = s.mem := by
  unfold State.writeProfile
  split
  · rfl
  · split
    · rfl
    · split
      · rfl
      · unfold State.acceptProfile
        dsimp only
        split
        · exact drop_mem ..
        · rfl

theorem pausePort_mem (s : State) (p : Port) : (s.pausePort p).1.mem = s.mem := by
  unfold State.pausePort
  split
  · unfold State.withdraw
    dsimp only
    rw [State.mem_modPort, (TableWork.leaveLists _ p).mem, State.mem_modPort]
  all_goals rfl

namespace State.OutstandingBounded

variable {s t : State}

theorem congr (h : s.OutstandingBounded) (hm : t.mem = s.mem) : t.OutstandingBounded := by
  rw [State.OutstandingBounded, hm]
  exact h

theorem of_nil (hm : t.mem.outstanding = []) : t.OutstandingBounded := by
  simp [State.OutstandingBounded, hm]

theorem nil_of_ne_up (h : s.OutstandingBounded) (hs : s.mem.state ≠ .up) : s.mem.outstanding = [] := by
  obtain ⟨-, hnil, -⟩ := h
  exact hnil hs

theorem settle (h : s.OutstandingBounded) : s.settle.OutstandingBounded := by
  unfold State.settle
  split
  case h_1 hs =>
    split
    · exact of_nil (h.nil_of_ne_up (by simp [hs]))
    · exact h
  all_goals exact h

theorem popFront (h : s.OutstandingBounded) {i : OutItem} {rest : List OutItem} (hup : s.mem.state = .up)
    (hi : s.mem.outstanding = i :: rest) : (s.popFront rest).OutstandingBounded := by
  obtain ⟨hlen, -, haccepted⟩ := h
  rw [hi] at hlen haccepted
  refine ⟨(Nat.le_succ _).trans hlen, fun hdown => absurd hup hdown, fun j hj => haccepted j ?_⟩
  cases rest with
  | nil => cases hj
  | cons k rest => exact List.mem_cons_of_mem i hj

/-- A completion takes the front item off, and at most empties the list (R131, R141, R145). -/
theorem completeFront (h : s.OutstandingBounded) (hup : s.mem.state = .up) (b : Brought) :
    (s.completeFront b).settled.OutstandingBounded := by
  have hdown : ∀ c, (s.goDown c).settled.OutstandingBounded := fun c => of_nil (by rw [settled_mem, goDown_mem])
  unfold State.completeFront
  split
  case h_1 => exact hdown _
  case h_2 i rest hi =>
    split
    case isFalse => exact hdown _
    case isTrue =>
      have hhanded : ((s.popFront rest).hand i b).state.OutstandingBounded := (h.popFront hup hi).congr (hand_mem ..)
      refine congr (s := ((s.popFront rest).hand i b).state.moveLimit.state) ?_ (settled_mem _)
      unfold State.moveLimit
      split
      · exact of_nil (by rw [goDown_mem])
      · exact hhanded

theorem exec {c : Instr} (hexec : exec c s = .next t) (h : s.OutstandingBounded) : t.OutstandingBounded := by
  have hreply : ∀ (u : State) (r : Reply), u.OutstandingBounded → (u.enterReply r).OutstandingBounded := fun _ _ h => h
  cases c
  all_goals obtain rfl := Host.Outcome.next.inj hexec
  case acceptance p r => split; exacts [h, h]
  case delivery p => split; exacts [h, h]
  case decision p =>
    split
    · exact h
    · split; exacts [h.congr ((settled_mem _).trans (decideHead_mem ..)), h]
  case grant =>
    split
    case isFalse => exact h
    case isTrue hopen =>
      split
      case h_1 => exact h
      case h_2 w _ =>
        simp only [State.grantOpen, Bool.and_eq_true, beq_iff_eq, decide_eq_true_eq, List.all_eq_true] at hopen
        obtain ⟨⟨hup, hlen⟩, haccepted⟩ := hopen
        obtain ⟨i, hstate, hout⟩ := grantWork_mem s w
        exact ⟨by simpa [hout] using hlen, by simp [hstate, hup], by simpa [hout] using haccepted⟩
  case transferAcceptance =>
    obtain ⟨hlen, hnil, -⟩ := h
    refine ⟨by simpa using hlen, fun hup => by simp [hnil hup], fun i hi => ?_⟩
    obtain ⟨j, -, rfl⟩ := List.mem_map.mp (List.dropLast_subset _ hi)
    rfl
  case completion status data =>
    split
    case h_1 hup => exact h.completeFront hup _
    all_goals exact h
  case holdExpiry e => split; exacts [h.congr ((settled_mem _).trans (expire_mem ..)), h]
  case expiryDue e => split; exacts [h.congr (TableWork.setWork ..).mem, h]
  case responseLimitExpiry => split; exacts [of_nil (by rw [settled_mem, goDown_mem]), h]
  case passageToUp memIdle => exact settle (s := s.setPins { s.pins with memIdle := memIdle }) h
  case deviceReset d => exact settle (of_nil rfl)
  case prstNAsserted p => split; exacts [h, congr (s := s.setPrst p true) h (drop_mem ..)]
  case prstNDeasserted p => split; exacts [h, h]
  case mcsNFalling => split; exacts [h, h]
  case mcsNRising => split; exacts [h, h]
  case badCommand b => split; exacts [h, h]
  case readStatus => exact State.atCommandByte_keeps hreply h h
  case readPort b => exact State.atLastArgument_keeps b _ hreply (fun _ => State.withPort_keeps _ (fun _ => h) h) h
  case readRegion b => exact State.atLastArgument_keeps b _ hreply (fun _ => State.withRegion_keeps _ (fun _ => h) h) h
  case readLock b => exact State.atLastArgument_keeps b _ hreply (fun _ => State.withEntry_keeps _ (fun _ => h) h) h
  case readMemoryPort => exact State.atCommandByte_keeps hreply h h
  case writeProfile b =>
    exact State.atLastArgument_keeps b _ hreply
      (fun args => State.withPort_keeps _ (fun p => h.congr (writeProfile_mem s p args)) h) h
  case pausePort b =>
    exact State.atLastArgument_keeps b _ hreply (fun _ => State.withPort_keeps _ (fun p => h.congr (pausePort_mem s p)) h) h
  case resumePort b =>
    refine State.atLastArgument_keeps b _ hreply (fun _ => State.withPort_keeps _ (fun p => h.congr ?_) h) h
    unfold State.resumePort
    split <;> rfl
  case ackFault b =>
    refine State.atLastArgument_keeps b _ hreply (fun _ => State.withPort_keeps _ (fun p => h.congr ?_) h) h
    unfold State.ackFault
    split <;> rfl
  case writeRegion b =>
    refine State.atLastArgument_keeps b _ hreply (fun _ => State.withRegion_keeps _ (fun g => h.congr ?_) h) h
    unfold State.writeRegion
    (repeat' split) <;> rfl
  case breakLock b =>
    refine State.atLastArgument_keeps b _ hreply (fun _ => State.withEntry_keeps _ (fun e => h.congr ?_) h) h
    unfold State.breakLock
    split
    · exact ((TableWork.changeHeld ..).trans (TableWork.freeEntry ..)).mem
    all_goals rfl
  case setResponseLimit b =>
    refine State.atLastArgument_keeps b _ hreply (fun args => ?_) h
    unfold State.setResponseLimit
    (repeat' split) <;> exact h
  case recoverMemory =>
    refine State.atCommandByte_keeps hreply ?_ h
    unfold State.recoverMemory
    split
    case h_1 hdown =>
      have hnil := h.nil_of_ne_up (by simp [hdown])
      exact settle (s := s.setMem { s.mem with state := .settling }) (of_nil hnil)
    all_goals exact h
  case byteReceived b => split; exacts [h, h]

end State.OutstandingBounded

/-- Settles O55: a grant and an acceptance join a list only where it has room, a completion takes its front off, and every other piece
of work keeps the lists' lengths. -/
theorem everyStepKeepsTheListsBounded : Obligations.EveryStepKeepsTheListsBounded := by
  intro s t hout hqueues hstep
  refine ⟨?outstanding, queuesBounded_commandLaw.step hstep hqueues⟩
  case outstanding =>
    exact step_keeps (fun s h => h.congr s.mem_tick) (fun _ _ _ h => h) (fun _ _ _ hexec h => h.exec hexec) hstep hout

end Sys2Proof.Machine

/-! PROOF. The state after a device reset (O39, O60), and the passage to UP (O38): one rule for what a settling memory port does at an
event that may take it up. -/

namespace Sys2Proof.Machine

/-! ### Settling (R143) -/

theorem State.settle_of_settling {s : State} (hmem : s.mem.state = .settling) :
    s.settle = s.setMem { s.mem with state := if s.pins.memIdle then .up else .settling } := by
  unfold State.settle
  rw [hmem]
  cases hidle : s.pins.memIdle with
  | true => rfl
  | false =>
    have hself : ({ s.mem with state := .settling } : MemPort) = s.mem := by rw [← hmem]
    simp only [Bool.false_eq_true, if_false, hself, State.setMem]

theorem State.settle_of_ne_settling {s : State} (hmem : s.mem.state ≠ .settling) : s.settle = s := by
  unfold State.settle
  split
  case h_1 hs => exact absurd hs hmem
  all_goals rfl

theorem exec_passageToUp (s : State) (level : Bool) :
    exec (.passageToUp level) s = .next (s.setPins { s.pins with memIdle := level }).settle := rfl

/-- Settles O38: the level is written, and a settling port with the level asserted is up. -/
theorem memIdleTakesThePortUp : Obligations.MemIdleTakesThePortUp := by
  intro s level
  constructor
  case left =>
    rintro hmem rfl
    rw [exec_passageToUp, State.settle_of_settling (by exact hmem)]
    rfl
  case right =>
    intro h
    rw [exec_passageToUp]
    by_cases hmem : s.mem.state = .settling
    · obtain hne | rfl := h
      · exact absurd hmem hne
      · rw [State.settle_of_settling (by exact hmem)]
        simp only [State.setPins, State.setMem, Bool.false_eq_true, if_false, ← hmem]
    · rw [State.settle_of_ne_settling (by exact hmem)]

/-! ### Device reset -/

theorem exec_deviceReset (s : State) (defcfg : Bool) : ∃ m : MemPort,
    m = ⟨if s.pins.memIdle then .up else .settling, [], 64, 3⟩ ∧ exec (.deviceReset defcfg) s =
      .next ((State.resetWith { s.pins with defcfg := defcfg } s.wire s.clock s.choices s.pending).setMem m) :=
  ⟨_, rfl, congrArg _ (State.settle_of_settling rfl)⟩

/-- Each field of region `g` after a device reset (R32). -/
theorem regionsReset_getElem (defcfg : Bool) (g : RegionIx) :
    (regionsReset defcfg)[g] = if defcfg = true ∧ g = 0 then Region.wholeSpace else Region.blank := by
  cases defcfg with
  | false => simp [regionsReset]
  | true =>
    by_cases hg : g = 0
    · subst hg; rfl
    · have hne : ¬ (0 : Nat) = g.val := fun h => hg (Fin.ext h.symm)
      simp [regionsReset, hne, hg]

/-- Settles O39: the reset state field by field, with the memory port settled by MEM_IDLE. -/
theorem deviceResetLeavesTheResetState : Obligations.DeviceResetLeavesTheResetState := by
  intro s defcfg
  obtain ⟨m, rfl, hexec⟩ := exec_deviceReset s defcfg
  refine ⟨_, hexec, fun p => ?ports, fun g => ?regions, fun e => ?entries, rfl, rfl, rfl, rfl, rfl, rfl, ?alert⟩
  case ports =>
    rw [State.port_setMem, State.port_resetWith]
    refine ⟨?_, ?_, rfl, rfl, rfl, rfl, ?_, ?_⟩
    · cases defcfg <;> cases hp : s.prst p <;> simp_all [PortIf.reset, PortState.reset, State.prst]
    · rfl
    · simp [State.heldLines, State.resetWith, State.setMem, Interlock.reset]
    · simp [State.record, State.resetWith, State.setMem, OpUnit.reset]
  case regions => exact regionsReset_getElem defcfg g
  case entries => simp [State.entry, State.resetWith, State.setMem, Interlock.reset]
  case alert =>
    rw [State.alert_of_faults_empty fun p => by rw [State.port_setMem, State.port_resetWith]; rfl]
    cases hidle : s.pins.memIdle <;> simp [State.memDown]

/-! ### The laws at reset -/

/-- What O60 asks of a state. -/
def State.Lawful (s : State) : Prop := s.LinesDistinct ∧ s.OutstandingBounded ∧ s.QueuesBounded ∧ s.PortStatesLegal ∧ s.FrameLegal ∧
  s.SettingsLegal ∧ s.OutOfServiceAbsent ∧ s.NoneFreeWhileWaiting

theorem State.FrameLegal.resetWith (pins : Pins) (wire : List (Option Bool)) (clock : Clock) (choices : Nat) (pending : List Instr) :
    (State.resetWith pins wire clock choices pending).FrameLegal := by
  simp only [State.FrameLegal, State.resetWith, Frame.reset]
  cases pins.mcs <;> simp

theorem State.Lawful.resetWith (pins : Pins) (wire : List (Option Bool)) (clock : Clock) (choices : Nat) (pending : List Instr) :
    (State.resetWith pins wire clock choices pending).Lawful :=
  ⟨linesDistinct_commandLaw.reset pins wire clock choices pending, .of_nil rfl,
    queuesBounded_commandLaw.reset pins wire clock choices pending, portStatesLegal_commandLaw.reset pins wire clock choices pending,
    .resetWith .., .resetWith .., State.outOfServiceAbsent_iff.mpr (absentBut_commandLaw.reset pins wire clock choices pending),
    noneFreeWhileWaiting_commandLaw.reset pins wire clock choices pending⟩

/-- The laws do not see which state a memory port with nothing outstanding is in (R132). -/
theorem State.Lawful.setMem {s : State} (h : s.Lawful) {m : MemPort} (hout : m.outstanding = []) (hlimit : m.limit ≠ 0) :
    (s.setMem m).Lawful := by
  obtain ⟨hlines, -, hqueues, hports, hframe, ⟨hregions, hprofiles, -⟩, habsent, hfree⟩ := h
  exact ⟨hlines, .of_nil hout, hqueues, hports, hframe, ⟨hregions, hprofiles, hlimit⟩, habsent, hfree⟩

/-- Settles O60: each law's own reset case, and the passage to UP within the reset. -/
theorem resetStateKeepsTheLaws : Obligations.ResetStateKeepsTheLaws := by
  refine ⟨State.Lawful.resetWith .., State.Lawful.resetWith, fun s defcfg => ?_⟩
  obtain ⟨m, rfl, hexec⟩ := exec_deviceReset s defcfg
  exact ⟨_, hexec, State.Lawful.setMem (.resetWith ..) rfl (show (64 : Byte) ≠ 0 by decide)⟩

end Sys2Proof.Machine

/-! PROOF. The upstream commands (O4..O7), the acceptance of a transfer (O29), WRITE-REGION (O49), the matching region (O9), and the
step itself (O1, O2). -/

namespace Sys2Proof.Machine

/-! ### Acceptance and delivery (R1, R2) -/

theorem exec_acceptance (s : State) (p : Port) (r : Request) : exec (.acceptance p r) s =
    .next (if (s.port p).ready then s.modPort p (fun x => { x with queue := x.queue ++ [r] }) else s) := rfl

theorem PortIf.ready_iff {x : PortIf} : x.ready = true ↔ x.state ≠ .offline ∧ x.inbound < 8 := by simp [PortIf.ready]

/-- Settles O4: ready is exactly R9's condition. -/
theorem acceptanceJoinsTheQueue : Obligations.AcceptanceJoinsTheQueue := by
  intro s p r
  rw [exec_acceptance]
  constructor
  · intro hstate hroom
    rw [if_pos (PortIf.ready_iff.mpr ⟨hstate, hroom⟩)]
  · intro h
    rw [if_neg (by rw [PortIf.ready_iff, not_and_or, not_not, not_lt]; exact h)]

theorem exec_delivery (s : State) (p : Port) : exec (.delivery p) s =
    .next (if (s.offered p).isSome then s.modPort p (fun x => { x with resp := x.resp.tail }) else s) := rfl

section

variable {s : State} {p : Port} {r : RespEntry} {rest : List RespEntry}

theorem State.offered_of_complete (hs : (s.port p).state ≠ .offline) (hr : (s.port p).resp = r :: rest) {a : Answer}
    (ha : r.state = .complete a) : s.offered p = some (r.tag, a) := by
  obtain ⟨id, tag, kind, state⟩ := r
  subst ha
  simp [State.offered, hs, hr]

theorem State.offered_of_not_complete (hr : (s.port p).resp = r :: rest) (ha : ∀ a, r.state ≠ .complete a) :
    s.offered p = none := by
  obtain ⟨id, tag, kind, state⟩ := r
  unfold State.offered
  split
  · rfl
  · rw [hr]
    cases state with
    | complete a => exact absurd rfl (ha a)
    | _ => rfl

end

/-- Settles O5: what is offered is the front, while it is COMPLETE. -/
theorem deliveryTakesTheCompleteFront : Obligations.DeliveryTakesTheCompleteFront := by
  intro s p r rest hs hr
  rw [exec_delivery]
  constructor
  · intro a ha
    have hoffered := State.offered_of_complete hs hr ha
    rw [hoffered, Option.isSome_some, if_pos rfl]
    refine ⟨rfl, congrArg Host.Outcome.next (State.modPort_congr _ _ _ _ ?_)⟩
    simp [hr]
  · intro ha
    rw [State.offered_of_not_complete hr ha]
    exact ⟨rfl, rfl⟩

/-! ### The conditions of a decision (R10, R12) -/

theorem RespState.blocks_eq_false_iff {st : RespState} :
    st.blocks = false ↔ st ≠ .parked ∧ st ≠ .entryWait ∧ st ≠ .handedOver := by
  cases st <;> simp [RespState.blocks]

theorem State.blocked_eq_false_iff {s : State} {p : Port} : s.blocked p = false ↔
    s.record p = none ∧ ∀ r ∈ (s.port p).resp, r.state ≠ .parked ∧ r.state ≠ .entryWait ∧ r.state ≠ .handedOver := by
  simp only [State.blocked, Bool.or_eq_false_iff, List.any_eq_false, Bool.not_eq_true, RespState.blocks_eq_false_iff,
    Option.isSome_eq_false_iff, Option.isNone_iff_eq_none]
  exact and_comm

theorem exec_decision_of_not_decides {s : State} {p : Port} (h : s.decides p = false) : exec (.decision p) s = .next s := by
  simp only [exec, execDecision, h]
  split <;> rfl

/-- Settles O6. -/
theorem nothingIsDecidedOutsideItsConditions : Obligations.NothingIsDecidedOutsideItsConditions := by
  intro s p
  have hiff : s.decides p = true ↔ ((s.port p).state = .active ∨ (s.port p).state = .fenced) ∧ (s.port p).queue ≠ [] ∧
      (s.port p).resp.length < 4 ∧ s.record p = none ∧
        ∀ r ∈ (s.port p).resp, r.state ≠ .parked ∧ r.state ≠ .entryWait ∧ r.state ≠ .handedOver := by
    rw [State.decides_iff, State.blocked_eq_false_iff]
  refine ⟨hiff, fun h => exec_decision_of_not_decides ?_⟩
  rw [← Bool.not_eq_true, hiff]
  rintro ⟨hstate, hqueue, hroom, hrecord, hresp⟩
  obtain hpaused | hoffline | hempty | hfull | hsome | ⟨r, hr, hblocks⟩ := h
  · simp [hpaused] at hstate
  · simp [hoffline] at hstate
  · exact hqueue hempty
  · omega
  · simp [hrecord] at hsome
  · obtain ⟨hparked, hwait, hover⟩ := hresp r hr
    obtain h | h | h := hblocks
    exacts [hparked h, hwait h, hover h]

/-- Settles O7: a FENCED port's head is refused before any field is looked at, and FENCED is no fault. -/
theorem fencedHeadIsAnsweredFenced : Obligations.FencedHeadIsAnsweredFenced := by
  intro s p r rest hd hf hq
  have hcheck : s.headCheck p r = .refused .fenced := if_pos hf
  rw [exec_decision hd hq]
  simp only [State.decideHead, hcheck, State.reportOutcome, OutcomeCode.fault, settled_of, State.takeHead, State.enterRefused,
    State.modPort_modPort]
  refine congrArg _ (State.modPort_congr _ _ _ _ ?_)
  simp [PortIf.answered, hq, Answer.plain]

/-! ### Transfer acceptance (R130) -/

/-- Settles O29: all items but the newest are accepted already. -/
theorem transferIsAccepted : Obligations.TransferIsAccepted := by
  intro s l i hout hl hi
  have hfind : l.find? (fun x => !x.accepted) = none := by
    rw [List.find?_eq_none]
    intro x hx
    simp [hl x hx]
  have hmap : l.map (fun x => { x with accepted := true }) = l := by
    refine (List.map_congr_left fun x hx => ?_).trans l.map_id
    rw [← hl x hx]
    rfl
  constructor
  · simp [State.offeredTransfer, hout, List.find?_append, hfind, hi]
  · simp only [exec, execTransferAcceptance, hout, List.map_append, hmap, List.map_cons, List.map_nil]

/-! ### WRITE-REGION (R33) -/

theorem regionArg_of_ge {b : Byte} (h : 16 ≤ b.toNat) : regionArg b = none := dif_neg (Nat.not_lt.mpr h)

theorem regionArg_of_toNat_eq {b : Byte} {g : RegionIx} (h : b.toNat = g.val) : regionArg b = some g := by
  have hlt : b.toNat < 16 := h ▸ g.isLt
  rw [regionArg, dif_pos hlt]
  exact congrArg some (Fin.ext h)

theorem State.withRegion_of_ge (s : State) {b : Byte} (run : RegionIx → State × Reply) (h : 16 ≤ b.toNat) :
    s.withRegion b run = (s, .just .badArg) := by
  rw [State.withRegion, regionArg_of_ge h]

theorem State.withRegion_of_toNat_eq (s : State) {b : Byte} {g : RegionIx} (run : RegionIx → State × Reply) (h : b.toNat = g.val) :
    s.withRegion b run = run g := by
  rw [State.withRegion, regionArg_of_toNat_eq h]

section

variable {s : State} {g : RegionIx} {r : Region}

theorem State.writeRegion_of_inverted (hv : r.valid = true) (hlimit : r.limit < r.base) :
    s.writeRegion g r = (s, .just .badArg) := if_pos ⟨hv, hlimit⟩

theorem State.writeRegion_of_not_quiet (h : ¬ (r.valid = true ∧ r.limit < r.base)) (hq : s.quiet = false) :
    s.writeRegion g r = (s, .just .notQuiet) := by
  rw [State.writeRegion, if_neg h, if_pos hq]

theorem State.writeRegion_of_quiet (h : ¬ (r.valid = true ∧ r.limit < r.base)) (hq : s.quiet = true) :
    s.writeRegion g r = (s.setRegion g r, .just .ok) := by
  rw [State.writeRegion, if_neg h, if_neg (by simp [hq])]

end

/-- Settles O49: the region's number, its limits, then quiet. -/
theorem writeRegionNeedsQuiet : Obligations.WriteRegionNeedsQuiet := by
  intro s g n flags mask b1 b2 b3 l1 l2 l3 hlink
  let args : List Byte := [n, flags, mask, b1, b2, b3, l1, l2, l3]
  have hexec : exec (.writeRegion l3) s =
      .next ((s.withRegion n (fun g => s.writeRegion g (regionFields args))).1.enterReply
        (s.withRegion n (fun g => s.writeRegion g (regionFields args))).2) :=
    congrArg Host.Outcome.next (State.atLastArgument_of_link l3 _ hlink rfl)
  rw [hexec]
  refine ⟨fun hn => ?_, fun hn => ⟨fun ⟨hv, hlt⟩ => ?_, fun hok => ?_⟩⟩
  · rw [State.withRegion_of_ge s _ hn]
    rfl
  · rw [State.withRegion_of_toNat_eq s _ hn, State.writeRegion_of_inverted (r := regionFields args) hv hlt]
    rfl
  · have hordered : ¬ ((regionFields args).valid = true ∧ (regionFields args).limit < (regionFields args).base) := by
      rintro ⟨hv, hlt⟩
      obtain hoff | hle := hok
      · exact Bool.false_ne_true (hoff.symm.trans hv)
      · exact absurd hlt (BitVec.not_lt.mpr hle)
    rw [State.withRegion_of_toNat_eq s _ hn]
    refine ⟨fun hq => ?_, fun hq => ?_⟩
    · rw [State.writeRegion_of_not_quiet hordered hq]
      rfl
    · rw [State.writeRegion_of_quiet hordered hq]
      rfl

/-! ### The matching region (R29) -/

theorem Region.covers_iff {r : Region} {p : Port} {b : Block} : r.covers p b = true ↔
    r.valid = true ∧ r.base ≤ b ∧ b ≤ r.limit ∧ r.mask.getLsbD p = true := by
  simp [Region.covers, and_assoc]

theorem blockOf_congr {a a' : Word} (h : lineOf a = lineOf a') : blockOf a = blockOf a' := by
  have hblock : ∀ x : Word, blockOf x = (lineOf x).extractLsb' 4 24 := by
    intro x
    ext i hi
    simp only [blockOf, lineOf, BitVec.getElem_extractLsb', BitVec.getLsbD_extractLsb']
    rw [show 4 + (4 + i) = 8 + i by omega, decide_eq_true (by omega : 4 + i < 28), Bool.true_and]
  rw [hblock, hblock, h]

/-- Settles O9: the search goes through the regions in order of their number. -/
theorem matchingRegionIsTheLowestNumbered : Obligations.MatchingRegionIsTheLowestNumbered := by
  intro s p
  refine ⟨fun b => ?_, fun a a' h => by rw [blockOf_congr h]⟩
  simp only [← Region.covers_iff]
  cases hmatch : s.matchRegion p b with
  | none =>
    refine .inr ⟨rfl, fun h => ?_⟩
    exact List.find?_eq_none.mp hmatch _ (by simp)
  | some r =>
    obtain ⟨hr, i, hi, hget, hbefore⟩ := List.find?_eq_some_iff_getElem.mp hmatch
    have hlt : i < 16 := by simpa using hi
    have hregion : s.regions[(⟨i, hlt⟩ : RegionIx)] = r := by simpa using hget
    refine .inl ⟨⟨i, hlt⟩, by rw [hregion], by rw [hregion]; exact hr, fun h hh => ?_⟩
    simpa using hbefore h.val hh

end Sys2Proof.Machine

/-! PROOF. The step (O1, O2): the command at the front of the queue, and what the part does by itself. -/

namespace Sys2Proof.Machine

theorem step_of_cons {s : State} {c : Instr} {rest : List Instr} (h : s.pending = c :: rest) :
    step s = exec c { s with pending := rest } := by
  rw [step, h]

/-- Settles O1. -/
theorem stepRunsTheFrontCommand : Obligations.StepRunsTheFrontCommand := fun _ _ _ h => step_of_cons h

section

variable {s : State}

theorem step_of_nil (h : s.pending = []) : step s = s.idle := by
  rw [step, h]

theorem State.idle_of_nil (h : s.due = []) : s.idle = .next s.tick := by
  rw [State.idle, h]

theorem State.idle_of_single {i : Instr} (h : s.due = [i]) : s.idle = exec i s := by
  rw [State.idle, h]

/-- Of several due events one is taken, whichever the free value names (log 1). -/
theorem State.idle_of_several (h : 2 ≤ s.due.length) : ∃ i ∈ s.due, s.idle = exec i { s with choices := s.choices + 1 } := by
  have hlt : Config.eventOrder s.choices % s.due.length < s.due.length := Nat.mod_lt _ (by omega)
  have hchosen : s.chosenDue s.due = some (s.due[Config.eventOrder s.choices % s.due.length]) := List.getElem?_eq_getElem hlt
  refine ⟨_, List.getElem_mem hlt, ?_⟩
  unfold State.idle
  split
  case h_1 hnil => simp [hnil] at h
  case h_2 i hone => simp [hone] at h
  case h_3 =>
    rw [hchosen]

/-! ### What is due -/

theorem mem_dueIf {b : Bool} {c i : Instr} : i ∈ dueIf b c ↔ i = c ∧ b = true := by
  cases b <;> simp [dueIf]

theorem State.passageDue_iff : s.passageDue = true ↔ s.mem.state = .settling ∧ s.pins.memIdle = true := by
  simp [State.passageDue]

theorem State.limitReached_iff : s.limitReached = true ↔ s.mem.state = .up ∧ ∃ x rest, s.mem.outstanding = x :: rest ∧
    s.mem.limit.toNat * s.perMicrosecond ≤ s.clock.now - x.issueTime := by
  rw [show s.mem.limit.toNat * s.perMicrosecond = s.limitTime from rfl]
  cases hout : s.mem.outstanding with
  | nil => simp [State.limitReached, hout]
  | cons x rest => simp [State.limitReached, hout]

theorem State.suspended_eq_false_iff {x : Entry} : (s.suspended x) = false ↔ (s.port x.owner).state ≠ .paused := by
  simp [State.suspended]

theorem State.holdExpires_iff {e : EntryIx} : s.holdExpires e = true ↔
    ∃ x, s.entry e = some x ∧ (s.port x.owner).state ≠ .paused ∧ x.work = .held 0 := by
  simp [State.holdExpires, Option.any_eq_true, State.suspended_eq_false_iff, and_comm]

theorem State.expiryFallsDue_iff {e : EntryIx} : s.expiryFallsDue e = true ↔
    ∃ x, s.entry e = some x ∧ (s.port x.owner).state ≠ .paused ∧ x.work = .fusingUnderLock 0 false := by
  simp [State.expiryFallsDue, Option.any_eq_true, State.suspended_eq_false_iff, and_comm]

theorem State.mem_due {i : Instr} : i ∈ s.due ↔
    (∃ p, i = .decision p ∧ s.decides p = true) ∨ (i = .grant ∧ s.grantDue = true) ∨
      (i = .passageToUp true ∧ s.passageDue = true) ∨ (i = .responseLimitExpiry ∧ s.limitReached = true) ∨
      ∃ e, i = .holdExpiry e ∧ s.holdExpires e = true ∨ i = .expiryDue e ∧ s.expiryFallsDue e = true := by
  simp only [State.due, List.mem_append, List.mem_flatMap, mem_dueIf, mem_allPorts, mem_allEntries, true_and, or_assoc]

/-! ### A quantum of time -/

theorem State.port_tickEntry (s : State) (e : EntryIx) (p : Port) : (s.tickEntry e).port p = s.port p :=
  congrArg (fun v => Vector.get v p) (Counted.tickEntry s e).ports

/-- Entry `e` after its quantum: its timer counts unless its owner is PAUSED (R80). -/
def State.ticked (s : State) (x : Entry) : Entry := if s.suspended x then x else { x with work := x.work.tick }

theorem State.entry_tickEntry (s : State) (e f : EntryIx) :
    (s.tickEntry e).entry f = if f = e then (s.entry f).map s.ticked else s.entry f := by
  unfold State.tickEntry
  by_cases hf : f = e
  · subst hf
    rw [if_pos rfl]
    split
    case h_1 hx => rw [hx]; rfl
    case h_2 x hx =>
      rw [hx, Option.map_some, State.ticked]
      split
      · exact hx
      · exact State.entry_setEntry_self ..
  · rw [if_neg hf]
    split
    · rfl
    · split
      · rfl
      · exact State.entry_setEntry_of_ne _ _ _ _ hf

theorem State.entry_foldl_tickEntry {l : List EntryIx} (hl : l.Nodup) (s : State) (f : EntryIx) :
    (l.foldl State.tickEntry s).entry f = if f ∈ l then (s.entry f).map s.ticked else s.entry f := by
  induction l generalizing s with
  | nil => rfl
  | cons e l ih =>
    obtain ⟨he, hl⟩ := List.nodup_cons.mp hl
    have hticked : (s.tickEntry e).ticked = s.ticked := by
      funext x
      rw [State.ticked, State.ticked, State.suspended, State.suspended, State.port_tickEntry]
    rw [List.foldl_cons, ih hl, hticked, State.entry_tickEntry]
    by_cases hf : f = e
    · subst hf; simp [he]
    · simp [hf]

theorem State.entry_tick (s : State) (e : EntryIx) : s.tick.entry e = (s.entry e).map s.ticked := by
  have htable : s.tick.table = s.countQuantum.table := by rw [State.tick_eq, State.table_clockLink]
  have hcount : s.countQuantum.entry e = (allEntries.foldl State.tickEntry s).entry e := by
    unfold State.countQuantum
    generalize allEntries.foldl State.tickEntry s = u
    rfl
  rw [State.entry, htable, ← State.entry, hcount, State.entry_foldl_tickEntry (by decide), if_pos (mem_allEntries e)]

/-- The timer of an entry after its quantum, work by work. -/
theorem State.ticked_eq (s : State) (x : Entry) : s.ticked x = { x with work :=
    match x.work with
    | .held n => if (s.port x.owner).state = .paused then .held n else .held (n - 1)
    | .fusingUnderLock n d => if (s.port x.owner).state = .paused then .fusingUnderLock n d else .fusingUnderLock (n - 1) d
    | .acquiring d => .acquiring d
    | .releasing d => .releasing d
    | .fusingFresh => .fusingFresh
    | .fusingDetached => .fusingDetached } := by
  obtain ⟨line, owner, work, waiters⟩ := x
  by_cases hp : (s.port owner).state = .paused
  · cases work <;> simp [State.ticked, State.suspended, hp]
  · cases work <;> simp [State.ticked, State.suspended, hp, EntryWork.tick]

theorem State.clock_tick (s : State) : s.tick.clock = ⟨s.clock.now + 1, s.clock.finer⟩ := by
  rw [State.tick_eq, State.clock_clockLink]
  unfold State.countQuantum
  generalize allEntries.foldl State.tickEntry s = u
  rfl

/-- With nothing on the wire, or no edge in this quantum, the link's byte position and the queue stay (log 8). -/
theorem State.tick_of_no_edge (h : ∀ bit later, s.wire ≠ some bit :: later) :
    s.tick.shift = s.shift ∧ s.tick.pending = s.pending := by
  have hcount := Counted.countQuantum s
  rw [← hcount.shift, ← hcount.pending, State.tick_eq]
  rw [← hcount.wire] at h
  generalize s.countQuantum = u at h
  unfold State.clockLink
  split
  case h_1 => exact ⟨rfl, rfl⟩
  case h_2 => exact ⟨rfl, rfl⟩
  case h_3 bit later hwire => exact absurd hwire (h bit later)

end

/-- Settles O2: the three forms of the idle step, what is due event by event, and what a quantum does to each part. -/
theorem stepOnAnEmptyQueueTakesADueEventOrTime : Obligations.StepOnAnEmptyQueueTakesADueEventOrTime := by
  intro s hempty
  rw [step_of_nil hempty]
  refine ⟨State.idle_of_nil, fun _ => State.idle_of_single, State.idle_of_several, fun i => ?due, s.clock_tick, ?kept,
    ⟨s.wire_tick, State.tick_of_no_edge⟩, fun e he => ?free, fun e x hx => ?timer⟩
  case due =>
    simp only [State.mem_due, State.passageDue_iff, State.limitReached_iff, State.holdExpires_iff, State.expiryFallsDue_iff]
    refine or_congr_right (or_congr_right (or_congr_right (or_congr_right (exists_congr fun e => ?_))))
    constructor
    · rintro (⟨hi, x, hx, hs, hw⟩ | ⟨hi, x, hx, hs, hw⟩)
      exacts [⟨x, hx, hs, .inl ⟨hi, hw⟩⟩, ⟨x, hx, hs, .inr ⟨hi, hw⟩⟩]
    · rintro ⟨x, hx, hs, ⟨hi, hw⟩ | ⟨hi, hw⟩⟩
      exacts [.inl ⟨hi, x, hx, hs, hw⟩, .inr ⟨hi, x, hx, hs, hw⟩]
  case kept =>
    refine ⟨s.ports_tick, s.regions_tick, ?_, s.handover_tick, s.entryWait_tick, s.ops_tick, s.mem_tick, s.link_tick, s.pins_tick,
      s.choices_tick⟩
    rw [State.tick_eq, State.table_clockLink, (Counted.countQuantum s).heldLines]
  case free => rw [State.entry_tick, he, Option.map_none]
  case timer =>
    rw [State.entry_tick, hx]
    exact congrArg some (s.ticked_eq x)

end Sys2Proof.Machine

/-! PROOF. What a decision does at the interlock stage (O12..O15, O17..O19): for each statement the stage's result, and then the rule of
that result. -/

namespace Sys2Proof.Machine

variable {s : State} {p : Port} {r : Request} {rest : List Request} {c : Checked}

/-! ### The stage, result by result -/

/-- A READ or WRITE that needs no lock: of a line that is free, or that the port holds itself, or past READTHRU (R52, R53). -/
theorem State.stage_plain (hkind : c.kind = .read ∨ c.kind = .write)
    (h : (s.own p c.line = none ∨ c.kind = .read) ∧ s.lineEntry c.line = none ∨ s.own p c.line = some .held ∨
      s.own p c.line = some .acquiring ∨ s.own p c.line = some .releasing ∨ c.kind = .read ∧ c.readthru = true)
    (a : Option EntryIx) : s.stage p c a = .proceed .plain := by
  obtain hk | hk := hkind
  · simp only [State.stage, hk, State.stageRead]
    obtain ⟨-, hfree⟩ | hown | hown | hown | ⟨-, hthru⟩ := h
    case inr.inr.inr.inr => simp only [hthru, if_true]; (repeat' split) <;> rfl
    all_goals simp_all only
    split <;> rfl
  · simp only [State.stage, hk, State.stageWrite]
    obtain ⟨hown | hread, hfree⟩ | hown | hown | hown | ⟨hread, -⟩ := h
    case inl.inr => cases hk.symm.trans hread
    case inr.inr.inr.inr => cases hk.symm.trans hread
    all_goals simp_all only

/-- A LOCK-READ of a free line with room below the limit takes the entry that is to be had, or waits for one (R54). -/
theorem State.stage_lockRead (hkind : c.kind = .lockRead) (hown : s.own p c.line = none)
    (hroom : (s.heldLines p).length < (s.port p).profile.lockLimit.toNat) (hfree : s.lineEntry c.line = none)
    (a : Option EntryIx) :
    s.stage p c a = a.elim .waitEntry (fun e => .proceed (.acquire e)) := by
  simp only [State.stage, hkind, State.stageLockRead, hown, Option.isSome_none, Bool.false_eq_true, if_false,
    if_neg (Nat.not_le.mpr hroom), hfree]
  cases a <;> rfl

/-- A FUSED of a free line takes the entry that is to be had, or waits for one (R58). -/
theorem State.stage_fused {op : FusedOp} (hkind : c.kind = .fused op) (hown : s.own p c.line = none)
    (hfree : s.lineEntry c.line = none) (a : Option EntryIx) :
    s.stage p c a = a.elim .waitEntry (fun e => .proceed (.fresh e op)) := by
  simp only [State.stage, hkind, State.stageFused, hown, hfree]
  cases a <;> rfl

theorem State.stage_fused_held {op : FusedOp} {e : EntryIx} (hkind : c.kind = .fused op) (hown : s.own p c.line = some .held)
    (he : s.heldEntry p c.line = some e) (a : Option EntryIx) : s.stage p c a = .proceed (.underLock e op) := by
  simp only [State.stage, hkind, State.stageFused, hown, he]

theorem State.stage_releaseWrite_held {e : EntryIx} (hkind : c.kind = .releaseWrite) (hown : s.own p c.line = some .held)
    (he : s.heldEntry p c.line = some e) (a : Option EntryIx) : s.stage p c a = .proceed (.release e) := by
  simp only [State.stage, hkind, State.stageReleaseWrite, hown, he]

theorem State.stage_unlock_held {e : EntryIx} (hkind : c.kind = .unlock) (hown : s.own p c.line = some .held)
    (he : s.heldEntry p c.line = some e) (a : Option EntryIx) : s.stage p c a = .unlock e := by
  simp only [State.stage, hkind, State.stageUnlock, hown, he]

theorem State.stage_lockHeld (hkind : c.kind = .lockRead) (hown : s.own p c.line ≠ none) (a : Option EntryIx) :
    s.stage p c a = .refuse .lockHeld := by
  simp only [State.stage, hkind, State.stageLockRead]
  exact if_pos (Option.isSome_iff_ne_none.mpr hown)

theorem State.stage_limit (hkind : c.kind = .lockRead) (hown : s.own p c.line = none)
    (hfull : (s.port p).profile.lockLimit.toNat ≤ (s.heldLines p).length) (a : Option EntryIx) :
    s.stage p c a = .refuse .limit := by
  simp only [State.stage, hkind, State.stageLockRead, hown, Option.isSome_none, Bool.false_eq_true, if_false, if_pos hfull]

/-- Work on a lock that the port has not got (R56, R57, R58). -/
theorem State.stage_notHeld (h : (c.kind = .releaseWrite ∨ c.kind = .unlock) ∧ s.own p c.line = none ∨
      (c.kind = .releaseWrite ∨ c.kind = .unlock ∨ ∃ op, c.kind = .fused op) ∧
        (s.own p c.line = some .acquiring ∨ s.own p c.line = some .releasing))
    (a : Option EntryIx) : s.stage p c a = .refuse .notHeld := by
  obtain ⟨hk | hk, hown⟩ | ⟨hk | hk | ⟨op, hk⟩, hown | hown⟩ := h
  all_goals simp only [State.stage, hk, State.stageReleaseWrite, State.stageUnlock, State.stageFused, hown]

theorem State.stage_broken {cause : BreakCause} (hkind : c.kind = .write ∨ ∃ op, c.kind = .fused op)
    (hown : s.own p c.line = some (.broken cause)) (a : Option EntryIx) : s.stage p c a = .refuse .broken := by
  obtain hk | ⟨op, hk⟩ := hkind
  all_goals simp only [State.stage, hk, State.stageWrite, State.stageFused, hown]

theorem State.stage_giveUp {cause : BreakCause} (hkind : c.kind = .releaseWrite ∨ c.kind = .unlock)
    (hown : s.own p c.line = some (.broken cause)) (a : Option EntryIx) : s.stage p c a = .giveUp := by
  obtain hk | hk := hkind
  all_goals simp only [State.stage, hk, State.stageReleaseWrite, State.stageUnlock, hown]

/-! ### Work on other parts, and the head leaving its queue -/

theorem State.Passes.queue (h : s.Passes p r rest c) : (s.port p).queue = r :: rest := by
  obtain ⟨⟨-, -, hq⟩, -⟩ := h
  exact hq

/-- The head enters the response list, whatever was done to the table and the records before (R11). -/
theorem asked_enter (st : RespState) (hq : (s.port p).queue = r :: rest) (t : Interlock) (u : OpUnit) :
    (asked s p r c).enter st ({ s.takeHead p with table := t, ops := u } : State) =
      ({ s with table := t, ops := u } : State).modPort p (fun x => x.answered r rest st) :=
  enter_takeHead (t := { s with table := t, ops := u }) hq st _ rfl c

theorem entryToTake_eq_none_of {s : State} (h : (∀ e, s.entry e ≠ none) ∨ s.table.entryWait ≠ []) : s.entryToTake = none := by
  unfold State.entryToTake
  split
  case isFalse => rfl
  case isTrue hempty =>
    obtain hfull | hwait := h
    · simpa [State.lowestFree, List.find?_eq_none] using fun e _ => hfull e
    · exact absurd (List.isEmpty_iff.mp hempty) hwait

/-- Settles O12. -/
theorem plainRequestProceedsToMemory : Obligations.PlainRequestProceedsToMemory := by
  intro s p r rest c h hfree t ht
  have hkind : c.kind = .read ∨ c.kind = .write := ht.imp And.left And.left
  have htransfer : c.transfer = t := by
    obtain ⟨hk, rfl⟩ | ⟨hk, rfl⟩ := ht <;> simp only [Checked.transfer, hk]
  have hexec := decision_proceeds h (s.stage_plain hkind hfree s.entryToTake)
  refine ⟨fun hup => ?_, fun hdown => ?_⟩
  · rw [hexec, hup, ← htransfer]
    exact congrArg _ (asked_enter _ h.queue s.table s.ops)
  · rw [hexec, hdown]
    rfl

/-- Settles O13. -/
theorem lockReadTakesTheLowestFreeEntry : Obligations.LockReadTakesTheLowestFreeEntry := by
  intro s p r rest c e h hkind hown hroom hfree hlowest
  have hstage := State.stage_lockRead hkind hown hroom hfree s.entryToTake
  rw [entryToTake_of_lowest hlowest] at hstage
  have hexec := decision_proceeds h (by rw [entryToTake_of_lowest hlowest]; exact hstage)
  refine ⟨fun hup => ?_, fun hdown => ?_⟩
  · have htransfer : c.transfer = ⟨.read, c.addr, c.width, 0⟩ := by simp only [Checked.transfer, hkind]
    rw [hexec, hup, ← htransfer]
    exact congrArg _ (asked_enter _ h.queue _ s.ops)
  · rw [hexec, hdown]
    rfl

/-- Settles O14. -/
theorem misuseOfLocksIsAFault : Obligations.MisuseOfLocksIsAFault := by
  intro s p r rest c h hf
  exact ⟨fun hkind hown => decision_faulted h (State.stage_lockHeld hkind hown _) rfl hf,
    fun hkind hown hfull => decision_faulted h (State.stage_limit hkind hown hfull _) rfl hf,
    fun hmisuse => decision_faulted h (State.stage_notHeld hmisuse _) rfl hf⟩

/-- Settles O15. -/
theorem lockerWithoutAnEntryWaits : Obligations.LockerWithoutAnEntryWaits := by
  intro s p r rest c h hkind hown hfree hnone
  have hstage : s.stage p c s.entryToTake = .waitEntry := by
    rw [entryToTake_eq_none_of hnone]
    obtain ⟨hk, hroom⟩ | ⟨op, hk⟩ := hkind
    · exact State.stage_lockRead hk hown hroom hfree none
    · exact State.stage_fused hk hown hfree none
  rw [decision_without_fault h hstage (by simp) (by simp)]
  exact congrArg _ (enter_hold_takeHead (t := s.setEntryWait (s.table.entryWait ++ [p])) h.queue _ _ rfl c)

/-- Settles O17. -/
theorem heldLineIsReleasedOrUnlocked : Obligations.HeldLineIsReleasedOrUnlocked := by
  intro s p r rest c e x h hown hentry hx
  refine ⟨fun hkind hup => ?_, fun hkind hdown => ?_, fun hkind => ?_⟩
  · have htransfer : c.transfer = ⟨.write, c.addr, c.width, c.width.low c.data⟩ := by simp only [Checked.transfer, hkind]
    have hwork : (s.takeHead p).setWork e (.releasing false) =
        (s.takeHead p).setEntry e (some { x with work := .releasing false }) :=
      State.modEntry_of_some (s := s.takeHead p) _ hx
    rw [decision_proceeds h (State.stage_releaseWrite_held hkind hown hentry _), hup, ← htransfer]
    simp only [Bool.false_eq_true, if_false, Asking.act, hwork]
    exact congrArg _ (asked_enter _ h.queue _ s.ops)
  · rw [decision_proceeds h (State.stage_releaseWrite_held hkind hown hentry _), hdown]
    rfl
  · rw [decision_passed h, State.stage_unlock_held hkind hown hentry]
    exact congrArg (fun t : State => Host.Outcome.next (t.freeEntry e)) (asked_enter _ h.queue _ s.ops)

/-- Settles O18. -/
theorem brokenLineAnswersBroken : Obligations.BrokenLineAnswersBroken := by
  intro s p r rest c cause h hown
  refine ⟨fun hkind => decision_answered h (State.stage_broken hkind hown _) rfl, fun hkind => ?_⟩
  rw [decision_without_fault h (State.stage_giveUp hkind hown _) (by simp) (by simp)]
  exact congrArg _ (asked_enter _ h.queue _ s.ops)

/-- Settles O19. -/
theorem fusedStartsAnOperation : Obligations.FusedStartsAnOperation := by
  intro s p r rest c op e h hkind
  have hfresh : s.own p c.line = none → s.lineEntry c.line = none → s.Lowest e →
      s.stage p c s.entryToTake = .proceed (.fresh e op) := by
    intro hown hfree hlowest
    rw [entryToTake_of_lowest hlowest]
    exact State.stage_fused hkind hown hfree (some e)
  refine ⟨fun hdown hfound => ?_, fun hup hown hfree hlowest => ?_, fun x n hup hown hentry hx hwork => ?_⟩
  · obtain ⟨hown, hfree, hlowest⟩ | ⟨hown, hentry⟩ := hfound
    · rw [decision_proceeds h (hfresh hown hfree hlowest), hdown]
      rfl
    · rw [decision_proceeds h (State.stage_fused_held hkind hown hentry _), hdown]
      rfl
  · rw [decision_proceeds h (hfresh hown hfree hlowest), hup]
    exact congrArg _ (asked_enter _ h.queue _ _)
  · have hunder : (s.takeHead p).enterUnderLock e =
        (s.takeHead p).setEntry e (some { x with work := .fusingUnderLock n false }) := by
      rw [State.enterUnderLock_eq_modEntry, State.modEntry_of_some (s := s.takeHead p) _ hx, hwork]
      rfl
    rw [decision_proceeds h (State.stage_fused_held hkind hown hentry _), hup]
    simp only [Bool.false_eq_true, if_false, Asking.act, hunder]
    exact congrArg _ (asked_enter _ h.queue _ _)

end Sys2Proof.Machine

/-! PROOF. The chain of owners (R94, R95): four entries are enough to tell whether it comes back, since each step but the last leaves a
port that no earlier one left; and what parks on it (O16). -/

namespace Sys2Proof.Machine

section

variable {s : State} {p : Port}

/-- The owner's own wait, where a chain that has come to port `q` goes on (R94). -/
def State.waitCloses (s : State) (p : Port) (n : Nat) (q : Port) : Bool :=
  s.parked q && (s.waitingOn q).any (s.chainCloses p n)

theorem State.chainCloses_succ_iff {n : Nat} {e : EntryIx} : s.chainCloses p (n + 1) e = true ↔
    ∃ x, s.entry e = some x ∧ (x.owner = p ∨ x.work.endsChain = false ∧ s.waitCloses p n x.owner = true) := by
  unfold State.chainCloses
  cases hx : s.entry e with
  | none => simp
  | some x =>
    by_cases hp : x.owner = p
    · simp [hp]
    · cases hends : x.work.endsChain with
      | true => simp [hp, hends]
      | false =>
        cases hparked : s.parked x.owner with
        | false => simp [hp, hends, hparked, State.waitCloses]
        | true => cases hw : s.waitingOn x.owner <;> simp [hp, hends, hparked, hw, State.waitCloses]

theorem EntryWork.endsChain_eq_false_iff {w : EntryWork} : w.endsChain = false ↔ w ≠ .fusingFresh ∧ w.detached = false := by
  cases w <;> simp [EntryWork.endsChain, EntryWork.detached]

theorem State.waitCloses_iff {n : Nat} {q : Port} : s.waitCloses p n q = true ↔
    s.parked q = true ∧ ∃ e, s.waitingOn q = some e ∧ s.chainCloses p n e = true := by
  simp [State.waitCloses, Option.any_eq_true]

theorem State.chainCloses_mono {n m : Nat} (hnm : n ≤ m) {e : EntryIx} (h : s.chainCloses p n e = true) :
    s.chainCloses p m e = true := by
  induction n generalizing m e with
  | zero => simp [State.chainCloses] at h
  | succ n ih =>
    obtain ⟨m, rfl⟩ : ∃ k, m = k + 1 := ⟨m - 1, by omega⟩
    obtain ⟨x, hx, hclose⟩ := State.chainCloses_succ_iff.mp h
    refine State.chainCloses_succ_iff.mpr ⟨x, hx, hclose.imp_right fun ⟨hends, hwait⟩ => ⟨hends, ?_⟩⟩
    obtain ⟨hparked, f, hf, hchain⟩ := State.waitCloses_iff.mp hwait
    exact State.waitCloses_iff.mpr ⟨hparked, f, hf, ih (by omega) hchain⟩

/-! ### How far a chain needs to be looked at (R95) -/

/-- The ports other than `p` from which the chain comes back within `n` entries. -/
def State.closers (s : State) (p : Port) (n : Nat) : Finset Port :=
  (Finset.univ.erase p).filter (fun q => s.waitCloses p n q = true)

theorem State.mem_closers {n : Nat} {q : Port} : q ∈ s.closers p n ↔ q ≠ p ∧ s.waitCloses p n q = true := by
  simp [State.closers]

theorem State.closers_mono {n m : Nat} (hnm : n ≤ m) : s.closers p n ⊆ s.closers p m := by
  intro q hq
  obtain ⟨hne, hwait⟩ := State.mem_closers.mp hq
  obtain ⟨hparked, f, hf, hchain⟩ := State.waitCloses_iff.mp hwait
  exact State.mem_closers.mpr ⟨hne, State.waitCloses_iff.mpr ⟨hparked, f, hf, State.chainCloses_mono hnm hchain⟩⟩

theorem State.card_closers_le (n : Nat) : (s.closers p n).card ≤ 3 := by
  refine (Finset.card_filter_le _ _).trans ?_
  simp

theorem State.chainCloses_congr_closers {n m : Nat} (h : s.closers p n = s.closers p m) (e : EntryIx) :
    s.chainCloses p (n + 1) e = s.chainCloses p (m + 1) e := by
  rw [Bool.eq_iff_iff, State.chainCloses_succ_iff, State.chainCloses_succ_iff]
  refine exists_congr fun x => and_congr_right fun _ => ?_
  by_cases hp : x.owner = p
  · simp [hp]
  · have hmem : x.owner ∈ s.closers p n ↔ x.owner ∈ s.closers p m := by rw [h]
    simpa [State.mem_closers, hp] using fun _ => hmem

/-- Past three entries no further port comes to close the chain. -/
theorem State.closers_eq {n : Nat} (hn : 3 ≤ n) : s.closers p n = s.closers p 3 := by
  have hmono : Monotone fun n => (s.closers p n).card := fun _ _ h => Finset.card_le_card (State.closers_mono h)
  have hstab : ∀ m, (s.closers p m).card = (s.closers p (m + 1)).card →
      (s.closers p (m + 1)).card = (s.closers p (m + 2)).card := by
    intro m hcard
    have hsame : s.closers p m = s.closers p (m + 1) :=
      Finset.eq_of_subset_of_card_le (State.closers_mono (Nat.le_succ m)) hcard.ge
    have hnext : s.closers p (m + 1) = s.closers p (m + 2) := by
      have hchain : s.chainCloses p (m + 1) = s.chainCloses p (m + 2) := funext (State.chainCloses_congr_closers hsame)
      have hwait : s.waitCloses p (m + 1) = s.waitCloses p (m + 2) := by
        funext q
        rw [State.waitCloses, State.waitCloses, hchain]
      rw [State.closers, State.closers, hwait]
    rw [← hnext]
  have hcard := Nat.stabilises_of_monotone hmono (fun m => State.card_closers_le m) hstab hn
  exact (Finset.eq_of_subset_of_card_le (State.closers_mono hn) hcard.le).symm

theorem State.chainCloses_four {n : Nat} {e : EntryIx} (h : s.chainCloses p n e = true) : s.chainCloses p 4 e = true := by
  by_cases hn : n ≤ 4
  · exact State.chainCloses_mono hn h
  · obtain ⟨m, rfl⟩ : ∃ m, n = m + 1 := ⟨n - 1, by omega⟩
    rw [State.chainCloses_congr_closers (State.closers_eq (by omega : 3 ≤ m))] at h
    exact h

/-- The check decides the chain of R94. -/
theorem State.comesBackTo_iff {e : EntryIx} : s.ComesBackTo p e ↔ s.chainCloses p 4 e = true := by
  constructor
  · intro h
    suffices hn : ∃ n, s.chainCloses p n e = true by
      obtain ⟨n, hn⟩ := hn
      exact State.chainCloses_four hn
    induction h with
    | owner he hp => exact ⟨1, State.chainCloses_succ_iff.mpr ⟨_, he, .inl hp⟩⟩
    | parked he hw hd hq ho _ ih =>
      obtain ⟨n, hn⟩ := ih
      exact ⟨n + 1, State.chainCloses_succ_iff.mpr ⟨_, he, .inr ⟨EntryWork.endsChain_eq_false_iff.mpr ⟨hw, hd⟩,
        State.waitCloses_iff.mpr ⟨hq, _, ho, hn⟩⟩⟩⟩
  · generalize (4 : Nat) = n
    intro h
    induction n generalizing e with
    | zero => simp [State.chainCloses] at h
    | succ n ih =>
      obtain ⟨x, hx, hp | ⟨hends, hwait⟩⟩ := State.chainCloses_succ_iff.mp h
      · exact .owner hx hp
      · obtain ⟨hw, hd⟩ := EntryWork.endsChain_eq_false_iff.mp hends
        obtain ⟨hparked, f, hf, hchain⟩ := State.waitCloses_iff.mp hwait
        exact .parked hx hw hd hparked hf (ih hchain)

theorem State.tryPark_of_closes {e : EntryIx} (h : s.ComesBackTo p e) : s.tryPark p e = .refuse .deadlock :=
  if_pos (State.comesBackTo_iff.mp h)

theorem State.tryPark_of_not_closes {e : EntryIx} (h : ¬ s.ComesBackTo p e) : s.tryPark p e = .park e :=
  if_neg (fun hc => h (State.comesBackTo_iff.mpr hc))

/-! ### Requests of a line that another holds (R61) -/

variable {c : Checked} {e : EntryIx}

/-- What needs a line that has an entry goes to the wait-for check (R52, R53, R54, R58). -/
theorem State.stage_of_wouldPark (hpark : s.WouldPark p c)
    (hown : s.own p c.line = none ∨ c.kind = .read ∧ ∃ cause, s.own p c.line = some (.broken cause))
    (he : s.lineEntry c.line = some e) (a : Option EntryIx) : s.stage p c a = s.tryPark p e := by
  have hnone : c.kind ≠ .read → s.own p c.line = none := fun hne => hown.resolve_right fun h => hne h.1
  obtain ⟨hk, hthru⟩ | hk | ⟨hk, hroom⟩ | ⟨op, hk⟩ := hpark
  · obtain hown | ⟨-, cause, hown⟩ := hown
    all_goals simp [State.stage, hk, State.stageRead, hown, he, hthru]
  · simp only [State.stage, hk, State.stageWrite, hnone (by simp [hk]), he]
  · simp [State.stage, hk, State.stageLockRead, hnone (by simp [hk]), Nat.not_le.mpr hroom, he]
  · simp only [State.stage, hk, State.stageFused, hnone (by simp [hk]), he]

end

/-- Settles O16: the wait-for check is exact. -/
theorem heldLineParksOrRefusesTheCycle : Obligations.HeldLineParksOrRefusesTheCycle := by
  intro s p r rest c e x h hpark hown he hx
  have hstage := State.stage_of_wouldPark hpark hown he s.entryToTake
  refine ⟨fun hopen => ?_, fun hcloses => ?_⟩
  · rw [State.tryPark_of_not_closes hopen] at hstage
    rw [decision_without_fault h hstage (by simp) (by simp)]
    have hpushed : (s.takeHead p).setWaiters e ((((s.takeHead p).entry e).map Entry.waiters).getD [] ++ [p]) =
        (s.setEntry e (some { x with waiters := x.waiters ++ [p] })).takeHead p := by
      have hx' : (s.takeHead p).entry e = some x := hx
      rw [State.setWaiters_eq_modEntry, State.modEntry_of_some _ hx', hx']
      rfl
    simp only [Asking.carryOut, hpushed]
    exact congrArg _ (enter_hold_takeHead (t := s.setEntry e (some { x with waiters := x.waiters ++ [p] })) h.queue _ _ rfl c)
  · exact decision_answered h (hstage.trans (State.tryPark_of_closes hcloses)) rfl

end Sys2Proof.Machine

/-! PROOF. The four stages of a teardown (O22), and what follows of the events that end in one: a second fault (O11) and a port's reset
(O40). -/

namespace Sys2Proof.Machine

/-! ### Stages 1 and 2 (R159, R160) -/

/-- A response-list entry after stages 1 and 2: work that waits for a lock, an entry or a grant is answered FENCED. -/
def RespEntry.torn (r : RespEntry) : RespEntry :=
  if r.state.waits ∨ r.state.waitsForGrant then { r with state := fencedAnswer } else r

theorem RespEntry.torn_complete (id : Nat) (tag : Tag) (kind : BitVec 3) (a : Answer) :
    RespEntry.torn ⟨id, tag, kind, .complete a⟩ = ⟨id, tag, kind, .complete a⟩ := rfl

theorem map_waits_map_waitsForGrant (l : List RespEntry) :
    (l.map (fun r => if r.state.waits then { r with state := fencedAnswer } else r)).map
      (fun r => if r.state.waitsForGrant then { r with state := fencedAnswer } else r) = l.map RespEntry.torn := by
  rw [List.map_map]
  refine List.map_congr_left fun r _ => ?_
  obtain ⟨id, tag, kind, state⟩ := r
  cases state <;> rfl

/-- A port's interface after stages 1 and 2, but for a cancelled operation. -/
def PortIf.cleared (x : PortIf) : PortIf := { x with held := none, resp := x.resp.map RespEntry.torn }

/-- The interlock table after stages 1 and 2: port `p` on none of its lists. -/
def Interlock.without (t : Interlock) (p : Port) : Interlock := { t with
  entries := t.entries.map (Option.map (fun x => { x with waiters := x.waiters.filter (fun q => q != p) }))
  entryWait := t.entryWait.filter (fun q => q != p)
  handover := t.handover.filter (fun i => i.port != p) }

theorem State.teardownTransfers_teardownWaiting (s : State) (p : Port) : (s.teardownWaiting p).teardownTransfers p =
    ({ s with table := s.table.without p } : State).modPort p PortIf.cleared := by
  have hmerge : ∀ (t : State) (l : List HandoverItem) (f g : PortIf → PortIf),
      ((t.modPort p f).setHandover l).modPort p g = (t.setHandover l).modPort p (fun x => g (f x)) :=
    fun t l f g => State.modPort_modPort (t.setHandover l) p f g
  unfold State.teardownTransfers State.teardownWaiting
  rw [hmerge, State.leaveLists_eq]
  refine State.modPort_congr _ _ _ _ ?_
  rw [PortIf.cleared, ← map_waits_map_waitsForGrant]

theorem State.torn_eq (s : State) (p : Port) :
    s.torn p = (({ s with table := s.table.without p } : State).modPort p PortIf.cleared).teardownOperation p := by
  rw [State.torn, State.teardownTransfers_teardownWaiting]

theorem OpRecord.readWaits_iff {r : OpRecord} :
    r.readWaits = true ↔ r.phase = .reading .candidate ∨ r.phase = .reading .handover := by
  obtain ⟨op, width, addr, operand, newValue, phase, mode, entry, detached, respId⟩ := r
  cases phase with
  | reading place => cases place <;> simp [OpRecord.readWaits]
  | _ => simp [OpRecord.readWaits]

theorem State.torn_of_no_record {s : State} {p : Port} (h : s.record p = none) :
    s.torn p = ({ s with table := s.table.without p } : State).modPort p PortIf.cleared := by
  have hrecord : (({ s with table := s.table.without p } : State).modPort p PortIf.cleared).record p = none := h
  rw [State.torn_eq, State.teardownOperation, hrecord]

/-! ### Stage 3, entry by entry (R161) -/

section

variable {t : State} {p : Port} {e : EntryIx} {x : Entry}

theorem State.transferOutstanding_iff : t.transferOutstanding p e = true ↔
    ∃ i ∈ t.mem.outstanding, ∃ id, i.origin = .request p id (.acquire e) ∨ i.origin = .request p id (.release e) := by
  simp only [State.transferOutstanding, List.any_eq_true]
  refine exists_congr fun i => and_congr_right fun _ => ?_
  cases i.origin with
  | request q id use => cases use <;> simp
  | operationRead q => simp
  | writeBack q => simp

theorem State.operationGoesOn_iff : t.operationGoesOn p e = true ↔ ∃ r, t.record p = some r ∧ r.entry = e := by
  simp [State.operationGoesOn, Option.any_eq_true]

theorem State.teardownEntry_of_other (hx : t.entry e = some x) (hp : x.owner ≠ p) : t.teardownEntry p e = t := by
  simp only [State.teardownEntry, hx, hp, if_false]

variable (hx : t.entry e = some x) (hp : x.owner = p)
include hx hp

theorem State.teardownEntry_of_held {n : Nat} (hw : x.work = .held n) : t.teardownEntry p e = t.freeEntry e := by
  simp only [State.teardownEntry, hx, hp, if_true, hw]

theorem State.teardownEntry_of_no_transfer (hw : x.work = .acquiring false ∨ x.work = .releasing false)
    (ho : t.transferOutstanding p e = false) : t.teardownEntry p e = t.freeEntry e := by
  obtain hw | hw := hw <;> simp only [State.teardownEntry, hx, hp, if_true, hw, ho, Bool.false_eq_true, if_false]

theorem State.teardownEntry_of_acquiring (hw : x.work = .acquiring false) (ho : t.transferOutstanding p e = true) :
    t.teardownEntry p e = t.setEntry e (some { x with work := .acquiring true }) := by
  simp only [State.teardownEntry, hx, hp, if_true, hw, ho, State.setWork]

theorem State.teardownEntry_of_releasing (hw : x.work = .releasing false) (ho : t.transferOutstanding p e = true) :
    t.teardownEntry p e = t.setEntry e (some { x with work := .releasing true }) := by
  simp only [State.teardownEntry, hx, hp, if_true, hw, ho, State.setWork]

theorem State.teardownEntry_of_no_operation (hw : x.work = .fusingFresh ∨ ∃ n due, x.work = .fusingUnderLock n due)
    (ho : t.operationGoesOn p e = false) : t.teardownEntry p e = t.freeEntry e := by
  obtain hw | ⟨n, due, hw⟩ := hw <;> simp only [State.teardownEntry, hx, hp, if_true, hw, ho, Bool.false_eq_true, if_false]

theorem State.teardownEntry_of_underLock {n : Nat} {due : Bool} {r : OpRecord} (hw : x.work = .fusingUnderLock n due)
    (hr : t.record p = some r) (he : r.entry = e) : t.teardownEntry p e =
      (t.setEntry e (some { x with work := .fusingDetached })).setRecord p (some { r with detached := true }) := by
  simp only [State.teardownEntry, hx, hp, if_true, hw, State.operationGoesOn_iff.mpr ⟨r, hr, he⟩, State.setWork,
    State.detachRecord, State.record_setEntry, hr]

theorem State.teardownEntry_of_fresh (hw : x.work = .fusingFresh) (ho : t.operationGoesOn p e = true) :
    t.teardownEntry p e = t := by
  simp only [State.teardownEntry, hx, hp, if_true, hw, ho]

theorem State.teardownEntry_of_detached (hw : x.work.detached = true) : t.teardownEntry p e = t := by
  unfold State.teardownEntry
  rw [hx]
  dsimp only
  rw [if_pos hp]
  cases hwork : x.work with
  | acquiring d => rw [hwork] at hw; cases d <;> [cases hw; rfl]
  | releasing d => rw [hwork] at hw; cases d <;> [cases hw; rfl]
  | fusingDetached => rfl
  | held n => rw [hwork] at hw; cases hw
  | fusingFresh => rw [hwork] at hw; cases hw
  | fusingUnderLock n due => rw [hwork] at hw; cases hw

end

/-- Settles O22: stages 1 and 2 as one state, stage 3 case by case, and what stands afterwards. -/
theorem teardownLeavesOnlyWorkInFlight : Obligations.TeardownLeavesOnlyWorkInFlight := by
  intro s p fenced left answered cancelled out stageTwo
  have hanswered : answered = RespEntry.torn := by
    funext r
    obtain ⟨id, tag, kind, state⟩ := r
    cases state <;> rfl
  have hout : out = ({ s with table := s.table.without p } : State).modPort p PortIf.cleared := by
    simp only [out, hanswered]
    rfl
  have hstage : stageTwo = s.torn p := by
    rw [State.torn_eq, ← hout]
    have hrecord : out.record p = s.record p := rfl
    simp only [stageTwo, State.teardownOperation, hrecord]
    cases hr : s.record p with
    | none => rfl
    | some r =>
      dsimp only
      by_cases hw : r.readWaits = true
      · rw [if_pos hw, if_pos (OpRecord.readWaits_iff.mp hw)]
        rfl
      · rw [if_neg hw, if_neg (mt OpRecord.readWaits_iff.mpr hw)]
  refine ⟨?whole, ?port, fun t e x => State.teardownEntry_of_other, fun t e x hx hp => ?entry, s.teardown_absent p,
    s.teardown_ownsOnlyWorkInFlight p⟩
  case whole =>
    rw [hstage, State.teardown_eq]
    rfl
  case port => rw [hstage, State.port_teardown_self]
  case entry =>
    intro outstanding goesOn
    have hnone : ¬ outstanding → t.transferOutstanding p e = false := fun h => by
      rwa [← Bool.not_eq_true, State.transferOutstanding_iff]
    have hstopped : ¬ goesOn → t.operationGoesOn p e = false := fun h => by
      rwa [← Bool.not_eq_true, State.operationGoesOn_iff]
    exact ⟨fun n => State.teardownEntry_of_held hx hp, fun hw ho => State.teardownEntry_of_no_transfer hx hp hw (hnone ho),
      fun hw ho => State.teardownEntry_of_acquiring hx hp hw (State.transferOutstanding_iff.mpr ho),
      fun hw ho => State.teardownEntry_of_releasing hx hp hw (State.transferOutstanding_iff.mpr ho),
      fun hw ho => State.teardownEntry_of_no_operation hx hp hw (hstopped ho),
      fun n due r hw => State.teardownEntry_of_underLock hx hp hw,
      fun hw ho => State.teardownEntry_of_fresh hx hp hw (State.operationGoesOn_iff.mpr ho),
      State.teardownEntry_of_detached hx hp⟩

/-! ### A second fault (R154, R156, R157) -/

theorem State.OwnsOnlyWorkInFlight.modPort {s : State} {p : Port} (h : s.OwnsOnlyWorkInFlight p) (q : Port) (f : PortIf → PortIf) :
    (s.modPort q f).OwnsOnlyWorkInFlight p := h

theorem State.Absent.modPort {s : State} {p : Port} (h : s.Absent p) (q : Port) (f : PortIf → PortIf) : (s.modPort q f).Absent p := h

/-- The head answered with a fault over a record that holds one: the port is FENCED with both. -/
def PortIf.fencedAnswering (x : PortIf) (r : Request) (rest : List Request) (o : OutcomeCode) (first : Report)
    (k : FaultKind) : PortIf :=
  { x.answered r rest (.complete ⟨o, 0, Flags.zero⟩) with state := .fenced, fault := .two first k }

section

variable {s : State} {p : Port} {r : Request} {rest : List Request} {o : OutcomeCode} {k : FaultKind} {first : Report}

/-- A fault reported over a first one fences the port, whose teardown follows the decision. -/
theorem reportOutcome_fences (hs : (s.port p).state = .active) (hf : (s.port p).fault = .first first) (ho : o.fault = some k) :
    ((s.modPort p (fun x => x.answered r rest (.complete ⟨o, 0, Flags.zero⟩))).reportOutcome p r o).settled =
      (s.modPort p (fun x => x.fencedAnswering r rest o first k)).teardown p := by
  simp only [State.reportOutcome, ho, State.report, After.settled, State.modPort_modPort, State.port_modPort_self,
    PortIf.fencedBy, PortIf.answered, hs, hf, if_true, List.foldl_cons, List.foldl_nil]
  congr 1
  apply State.modPort_congr
  simp [PortIf.takeReport, hs, hf, PortIf.fencedAnswering, PortIf.answered]

theorem decision_fences (h : s.Decides p r rest) (hf : (s.port p).fault = .first first) (ho : o.fault = some k)
    (hfault : s.headCheck p r = .refused o ∨ ∃ c, s.headCheck p r = .passed c ∧ s.stage p c s.entryToTake = .refuse o) :
    exec (.decision p) s = .next ((s.modPort p (fun x => x.fencedAnswering r rest o first k)).teardown p) := by
  obtain ⟨hd, ha, hq⟩ := h
  rw [← reportOutcome_fences (r := r) (rest := rest) ha hf ho]
  obtain hc | ⟨c, hc, hstage⟩ := hfault
  · rw [exec_decision hd hq]
    simp only [State.decideHead, hc, State.enterRefused, State.takeHead, State.modPort_modPort]
    congr 3
    apply State.modPort_congr
    simp [PortIf.answered, hq, Answer.plain]
  · rw [decision_passed ⟨⟨hd, ha, hq⟩, hc⟩, hstage]
    simp only [Asking.carryOut, Asking.refuse, State.freeUnlocked, State.reportResult]
    rw [enter_takeHead hq _ _ rfl]
    rfl

end

/-- Settles O11: the decision ends in the teardown of a port that no longer decides, so with no operation to cancel. -/
theorem secondFaultFencesThePort : Obligations.SecondFaultFencesThePort := by
  intro s p r rest o k first h hf ho hfault
  let u := s.modPort p (fun x => x.fencedAnswering r rest o first k)
  have hwork : TableWork u (u.teardown p) := TableWork.teardown u p
  have hu : u.port p = (s.port p).fencedAnswering r rest o first k := State.port_modPort_self ..
  have hrecord : u.record p = none := by
    obtain ⟨hd, -, -⟩ := h
    obtain ⟨-, -, -, hblocked⟩ := State.decides_iff.mp hd
    exact (State.blocked_eq_false_iff.mp hblocked).1
  have hresp : ((u.teardown p).port p).resp = (u.port p).resp.map RespEntry.torn := by
    rw [State.port_teardown_self, State.torn_of_no_record hrecord, State.port_modPort_self]
    rfl
  refine ⟨u.teardown p, decision_fences h hf ho hfault, rfl, u.teardown_ownsOnlyWorkInFlight p, ?_, ?_, ?_, ?_, ?_,
    u.teardown_absent p, hwork.mem, hwork.regions, fun q hq => ?_⟩
  · rw [hwork.state, hu]
    rfl
  · rw [hwork.fault, hu]
    rfl
  · rw [hwork.queue, hu]
    rfl
  · rw [hwork.profile, hu]
    rfl
  · rw [hresp, hu]
    simp only [PortIf.fencedAnswering, PortIf.answered, List.map_append, List.map_cons, List.map_nil, List.getLast?_concat,
      RespEntry.torn_complete]
  · have hother : u.port q = s.port q := State.port_modPort_of_ne s p _ q hq
    rw [hwork.state, hwork.profile, hwork.queue, hwork.fault, hother]
    exact ⟨rfl, rfl, rfl, rfl⟩

/-! ### A port's reset (R22, R167) -/

theorem State.modPort_id (s : State) (p : Port) : s.modPort p id = s := by simp [State.modPort]

section

variable {s : State} {p : Port}

theorem exec_prstNAsserted (h : s.prst p = false) : exec (.prstNAsserted p) s = .next ((s.setPrst p true).drop p) := by
  simp only [exec, execPrstNAsserted, h, Bool.false_eq_true, if_false]

theorem exec_prstNDeasserted (h : s.prst p = true) :
    exec (.prstNDeasserted p) s = .next ((s.setPrst p false).modPort p PortIf.released) := by
  simp only [exec, execPrstNDeasserted, h, if_true]

/-- What a drop leaves of every port: of its own port the profile and the serial, of another everything but its response list (R167). -/
theorem State.drop_port (s : State) (p q : Port) : ((s.drop p).port q).profile = (s.port q).profile ∧
    (q ≠ p → ((s.drop p).port q).state = (s.port q).state ∧ ((s.drop p).port q).queue = (s.port q).queue ∧
      ((s.drop p).port q).fault = (s.port q).fault) := by
  have hwork : TableWork (s.modPort p fun x => { x with state := .offline })
      ((s.modPort p fun x => { x with state := .offline }).teardown p) := TableWork.teardown ..
  unfold State.drop
  generalize (s.modPort p fun x => { x with state := .offline }).teardown p = u at hwork
  by_cases hq : q = p
  · subst hq
    have hprofile := hwork.profile q
    rw [State.port_modPort_self] at hprofile
    rw [State.port_modPort_self]
    exact ⟨hprofile, fun h => absurd rfl h⟩
  · have hother : (s.modPort p fun x => { x with state := .offline }).port q = s.port q := State.port_modPort_of_ne s p _ q hq
    rw [State.port_modPort_of_ne u p _ q hq, hwork.profile, hwork.state, hwork.queue, hwork.fault, hother]
    exact ⟨rfl, fun _ => ⟨rfl, rfl, rfl⟩⟩

theorem State.drop_self (s : State) (p : Port) : ((s.drop p).port p).state = .offline ∧ ((s.drop p).port p).held = none ∧
    ((s.drop p).port p).queue = [] ∧ ((s.drop p).port p).resp = [] ∧ ((s.drop p).port p).fault = .empty := by
  have hstate := (TableWork.teardown (s.modPort p fun x => { x with state := .offline }) p).state p
  rw [State.port_modPort_self] at hstate
  unfold State.drop
  generalize (s.modPort p fun x => { x with state := .offline }).teardown p = u at hstate
  rw [State.port_modPort_self]
  exact ⟨hstate, rfl, rfl, rfl, rfl⟩

theorem State.drop_outside (s : State) (p : Port) : (s.drop p).regions = s.regions ∧ (s.drop p).mem = s.mem ∧
    (s.drop p).link = s.link ∧ (s.drop p).pins = s.pins := by
  have hwork := TableWork.teardown (s.modPort p fun x => { x with state := .offline }) p
  unfold State.drop
  generalize (s.modPort p fun x => { x with state := .offline }).teardown p = u at hwork
  exact ⟨hwork.regions, hwork.mem, hwork.link, hwork.pins⟩

end

/-- Settles O40: the assertion is a drop; the deassertion puts an enabled port into service. -/
theorem portResetDropsThePort : Obligations.PortResetDropsThePort := by
  intro s p
  refine ⟨fun hprst => ?assert, fun hprst hoff => ?deassert⟩
  case assert =>
    let u := s.setPrst p true
    obtain ⟨hstate, hheld, hqueue, hresp, hfault⟩ := u.drop_self p
    obtain ⟨hregions, hmem, hlink, hpins⟩ := u.drop_outside p
    have hlevel : ∀ q, (u.drop p).prst q = if q = p then true else s.prst q := fun q => by
      rw [← State.prst_setPrst, State.prst, hpins]
      rfl
    refine ⟨u.drop p, exec_prstNAsserted hprst, rfl, ?owns, ?level, hstate, (u.drop_port p p).1, hheld, hqueue, hresp, hfault, ?absent,
      hregions, hmem, hlink, fun q hq => ?others⟩
    case owns => exact (State.teardown_ownsOnlyWorkInFlight _ p).modPort p _
    case level => rw [hlevel, if_pos rfl]
    case absent => exact (State.teardown_absent _ p).modPort p _
    case others =>
      obtain ⟨hprofile, hothers⟩ := u.drop_port p q
      obtain ⟨hstate, hqueue, hfault⟩ := hothers hq
      exact ⟨by rw [hlevel, if_neg hq], hstate, hprofile, hqueue, hfault⟩
  case deassert =>
    have hport : (s.setPrst p false).port p = s.port p := rfl
    rw [exec_prstNDeasserted hprst]
    refine ⟨fun henabled => congrArg _ (State.modPort_congr _ _ _ _ ?_), fun hdisabled => congrArg _ ?_⟩
    · rw [hport, PortIf.released, if_pos ⟨hoff, henabled⟩]
    · have hkept : (s.setPrst p false).modPort p PortIf.released = (s.setPrst p false).modPort p id := by
        refine State.modPort_congr _ _ _ _ ?_
        rw [hport, PortIf.released, if_neg (by simp [hdisabled]), id]
      rw [hkept, State.modPort_id]
      rfl

end Sys2Proof.Machine

/-! PROOF. A freed entry and its walk (O20, O21): what the re-decision of one waiting port does by the stage's result, and where
the walk goes from there. -/

namespace Sys2Proof.Machine

/-! ### One entry written twice -/

@[simp] theorem State.setEntry_setEntry (s : State) (e : EntryIx) (x y : Option Entry) :
    (s.setEntry e x).setEntry e y = s.setEntry e y := by
  simp [State.setEntry]

/-! A write of an entry comes first among writes of other parts. -/

theorem State.setEntry_modPort (s : State) (q : Port) (f : PortIf → PortIf) (e : EntryIx) (x : Option Entry) :
    (s.modPort q f).setEntry e x = (s.setEntry e x).modPort q f := rfl

theorem State.setEntry_setHeldLines (s : State) (q : Port) (l : List HeldLine) (e : EntryIx) (x : Option Entry) :
    (s.setHeldLines q l).setEntry e x = (s.setEntry e x).setHeldLines q l := rfl

theorem State.setEntry_setHandover (s : State) (l : List HandoverItem) (e : EntryIx) (x : Option Entry) :
    (s.setHandover l).setEntry e x = (s.setEntry e x).setHandover l := rfl

theorem State.setEntry_setRecord (s : State) (q : Port) (r : Option OpRecord) (e : EntryIx) (x : Option Entry) :
    (s.setRecord q r).setEntry e x = (s.setEntry e x).setRecord q r := rfl

theorem State.setEntry_setEntryWait (s : State) (l : List Port) (e : EntryIx) (x : Option Entry) :
    (s.setEntryWait l).setEntry e x = (s.setEntry e x).setEntryWait l := rfl

theorem State.setEntry_self {s : State} {e : EntryIx} {x : Option Entry} (h : s.entry e = x) : s.setEntry e x = s := by
  subst h
  simp [State.setEntry, State.entry]

/-! ### The walk, step by step -/

section

variable {s : State} {e : EntryIx} {q : Port} {rest : List Port} {x y : Entry}

theorem State.freeEntry_of_some (hx : s.entry e = some x) : s.freeEntry e = handoverWalk e x.waiters (s.setEntry e none) := by
  rw [State.freeEntry, hx]

theorem handoverWalk_cons_taken (h : (s.redecide q e .handover).entry e = some y) :
    handoverWalk e (q :: rest) s = (s.redecide q e .handover).setEntry e (some { y with waiters := rest }) := by
  rw [handoverWalk, h]
  exact State.modEntry_of_some (fun z => { z with waiters := rest }) h

theorem handoverWalk_cons_free (h : (s.redecide q e .handover).entry e = none) :
    handoverWalk e (q :: rest) s = handoverWalk e rest (s.redecide q e .handover) := by
  rw [handoverWalk, h]

theorem giveEntry_cons_taken (h : ((s.setEntryWait rest).redecide q e .gift).entry e = some y) :
    giveEntry e (q :: rest) s = (s.setEntryWait rest).redecide q e .gift := by
  rw [giveEntry, h]

theorem giveEntry_cons_free (h : ((s.setEntryWait rest).redecide q e .gift).entry e = none) :
    giveEntry e (q :: rest) s = giveEntry e rest ((s.setEntryWait rest).redecide q e .gift) := by
  rw [giveEntry, h]

/-- The walk over the waiters that are left is that of the entry freed with those waiters (R72). -/
theorem handoverWalk_eq_freeEntry (h : s.entry e = none) (l : Line) (p : Port) (w : EntryWork) (rest : List Port) :
    handoverWalk e rest s = (s.setEntry e (some ⟨l, p, w, rest⟩)).freeEntry e := by
  rw [State.freeEntry_of_some (State.entry_setEntry_self ..), State.setEntry_setEntry, State.setEntry_self h]

end

/-! ### One waiting request re-decided (R44) -/

/-- The waiting request of port `q` at its re-decision. -/
abbrev again (q : Port) (h : HeldPlace) (via : Via) : Asking := ⟨q, h.id, h.request, h.checked, via⟩

section

variable {s : State} {e : EntryIx} {q : Port} {h : HeldPlace} {via : Via}

/-- The port of a re-decided request, whose response-list entry has passed to `st` and whose held place is released. -/
def PortIf.redecided (x : PortIf) (id : Nat) (st : RespState) : PortIf := { x with held := none }.setResp id st

theorem State.redecide_of_held (hh : (s.port q).held = some h) (e : EntryIx) (via : Via) : s.redecide q e via =
    (again q h via).carryOut ((s.releaseHeldPlace q).stage q h.checked (some e)) (s.releaseHeldPlace q) := by
  rw [State.redecide, hh]

/-- The held place goes and the response-list entry passes to a state (R8, R14). -/
theorem State.releaseHeldPlace_setResp (s : State) (q : Port) (id : Nat) (st : RespState) :
    (s.releaseHeldPlace q).setResp q id st = s.modPort q (fun x => x.redecided id st) := State.modPort_modPort ..

theorem again_refuse (hvia : via ≠ .decision) (o : OutcomeCode) (s : State) : (again q h via).refuse o (s.releaseHeldPlace q) =
    s.modPort q (fun x => x.redecided h.id (.complete ⟨o, 0, Flags.zero⟩)) := by
  rw [← State.releaseHeldPlace_setResp]
  cases via with
  | decision => exact absurd rfl hvia
  | handover => rfl
  | gift => rfl

/-- A re-decision whose request would go to memory while the memory port is DOWN (R42). -/
theorem State.redecide_of_down {a : Action} (hvia : via ≠ .decision) (hh : (s.port q).held = some h)
    (hstage : (s.releaseHeldPlace q).stage q h.checked (some e) = .proceed a) (hdown : s.memDown = true) :
    s.redecide q e via = s.modPort q (fun x => x.redecided h.id (.complete ⟨.memDown, 0, Flags.zero⟩)) := by
  have hdown' : (s.releaseHeldPlace q).memDown = true := hdown
  rw [State.redecide_of_held hh, hstage, ← again_refuse hvia]
  simp only [Asking.carryOut, hdown', if_true]

theorem State.redecide_of_up {a : Action} (hh : (s.port q).held = some h)
    (hstage : (s.releaseHeldPlace q).stage q h.checked (some e) = .proceed a) (hup : s.memDown = false) :
    s.redecide q e via = (again q h via).act a (s.releaseHeldPlace q) := by
  have hup' : (s.releaseHeldPlace q).memDown = false := hup
  rw [State.redecide_of_held hh, hstage]
  simp only [Asking.carryOut, hup', Bool.false_eq_true, if_false]

/-- What the stage sees of the port is not its held place. -/
theorem State.stage_lockRead_released (hkind : h.checked.kind = .lockRead) (hown : s.own q h.checked.line = none)
    (hroom : (s.heldLines q).length < (s.port q).profile.lockLimit.toNat) (hfree : s.lineEntry h.checked.line = none) :
    (s.releaseHeldPlace q).stage q h.checked (some e) = .proceed (.acquire e) := by
  refine State.stage_lockRead (s := s.releaseHeldPlace q) hkind hown ?_ hfree (some e)
  rw [State.releaseHeldPlace, State.port_modPort_self]
  exact hroom

theorem State.stage_fused_released {op : FusedOp} (hkind : h.checked.kind = .fused op) (hown : s.own q h.checked.line = none)
    (hfree : s.lineEntry h.checked.line = none) :
    (s.releaseHeldPlace q).stage q h.checked (some e) = .proceed (.fresh e op) :=
  State.stage_fused (s := s.releaseHeldPlace q) hkind hown hfree (some e)

/-- A plain request of a line that has no entry (R52, R53). -/
theorem State.stage_plain_of_free {s : State} {c : Checked} (hkind : c.kind = .read ∨ c.kind = .write)
    (hown : s.own q c.line = none ∨ c.kind = .read)
    (hfree : s.lineEntry c.line = none) (a : Option EntryIx) : s.stage q c a = .proceed .plain :=
  State.stage_plain hkind (.inl ⟨hown, hfree⟩) a

/-- The entry taken for a waiting LOCK-READ whose read goes to the handover list (R69). -/
theorem act_acquire_handover (s : State) :
    (again q h .handover).act (.acquire e) (s.releaseHeldPlace q) =
      (((s.setEntry e (some ⟨h.checked.line, q, .acquiring false, []⟩)).setHeldLines q
        (s.heldLines q ++ [⟨h.checked.line, .acquiring⟩])).setHandover
          (s.table.handover ++ [⟨q, .request h.id (.acquire e), h.checked.transfer⟩])).modPort q
            (fun x => x.redecided h.id .handedOver) := by
  rw [← State.releaseHeldPlace_setResp]
  rfl

theorem act_fresh_handover (s : State) (op : FusedOp) :
    (again q h .handover).act (.fresh e op) (s.releaseHeldPlace q) =
      (((s.setEntry e (some ⟨h.checked.line, q, .fusingFresh, []⟩)).setRecord q
        (some ⟨op, h.checked.width, h.checked.addr, h.checked.width.low h.checked.data, h.checked.width.low h.checked.data2,
          .reading .handover, .fresh, e, false, h.id⟩)).setHandover
            (s.table.handover ++ [⟨q, .operationRead, h.checked.transfer⟩])).modPort q
              (fun x => x.redecided h.id .inOperation) := by
  rw [← State.releaseHeldPlace_setResp]
  rfl

theorem act_plain_handover (s : State) : (again q h .handover).act .plain (s.releaseHeldPlace q) =
    (s.setHandover (s.table.handover ++ [⟨q, .request h.id .plain, h.checked.transfer⟩])).modPort q
      (fun x => x.redecided h.id .handedOver) := by
  rw [← State.releaseHeldPlace_setResp]
  rfl

theorem act_acquire_gift (s : State) : (again q h .gift).act (.acquire e) (s.releaseHeldPlace q) =
    ((s.setEntry e (some ⟨h.checked.line, q, .acquiring false, []⟩)).setHeldLines q
      (s.heldLines q ++ [⟨h.checked.line, .acquiring⟩])).modPort q
        (fun x => x.redecided h.id (.awaitingGrant (.acquire e) h.checked.transfer)) := by
  rw [← State.releaseHeldPlace_setResp]
  rfl

theorem act_fresh_gift (s : State) (op : FusedOp) : (again q h .gift).act (.fresh e op) (s.releaseHeldPlace q) =
    ((s.setEntry e (some ⟨h.checked.line, q, .fusingFresh, []⟩)).setRecord q
      (some ⟨op, h.checked.width, h.checked.addr, h.checked.width.low h.checked.data, h.checked.width.low h.checked.data2,
        .reading .candidate, .fresh, e, false, h.id⟩)).modPort q (fun x => x.redecided h.id .inOperation) := by
  rw [← State.releaseHeldPlace_setResp]
  rfl

end

/-- Settles O20: the front waiter is re-decided on the freed line, and takes the entry, or is released and the walk goes on. -/
theorem freedEntryIsHandedOver : Obligations.FreedEntryIsHandedOver := by
  intro s e x hx hdistinct
  refine ⟨fun hw hwait => ?_, fun q rest h hw hh hline hown => ?_⟩
  · rw [State.freeEntry_of_some hx, hw, handoverWalk, State.table_entryWait_setEntry, hwait, giveEntry]
  · let u := s.setEntry e none
    have hfree : u.lineEntry h.checked.line = none := by
      rw [hline]
      exact lineEntry_eq_none (line_of_freed hdistinct hx)
    have hempty : u.entry e = none := State.entry_setEntry_self ..
    have hlocker : h.checked.kind ≠ .read → u.own q h.checked.line = none := fun hne => by
      rw [hline]
      exact hown.resolve_right hne
    have hwalk : s.freeEntry e = handoverWalk e (q :: rest) u := by rw [State.freeEntry_of_some hx, hw]
    have hlock : h.checked.kind = .lockRead → (s.heldLines q).length < (s.port q).profile.lockLimit.toNat →
        (u.releaseHeldPlace q).stage q h.checked (some e) = .proceed (.acquire e) := fun hkind hroom =>
      State.stage_lockRead_released hkind (hlocker (by simp [hkind])) hroom hfree
    have hfused : ∀ op, h.checked.kind = .fused op →
        (u.releaseHeldPlace q).stage q h.checked (some e) = .proceed (.fresh e op) := fun op hkind =>
      State.stage_fused_released hkind (hlocker (by simp [hkind])) hfree
    have hplain : h.checked.kind = .read ∨ h.checked.kind = .write →
        (u.releaseHeldPlace q).stage q h.checked (some e) = .proceed .plain := fun hkind =>
      State.stage_plain_of_free (s := u.releaseHeldPlace q) hkind (by rw [hline]; exact hown) hfree (some e)
    refine ⟨fun t ht l p w => handoverWalk_eq_freeEntry ht l p w rest, fun hkind hroom hup => ?_, fun op hkind hup => ?_,
      fun hkind hup => ?_, fun hkind hdown => ?_⟩
    · have hact := (State.redecide_of_up (s := u) hh (hlock hkind hroom) hup).trans (act_acquire_handover u)
      have htaken : (u.redecide q e .handover).entry e = some ⟨h.checked.line, q, .acquiring false, []⟩ := by
        rw [hact]
        exact State.entry_setEntry_self ..
      rw [hwalk, handoverWalk_cons_taken htaken, hact, hline]
      simp only [u, State.setEntry_modPort, State.setEntry_setHandover, State.setEntry_setHeldLines, State.setEntry_setEntry]
      rfl
    · have hact := (State.redecide_of_up (s := u) hh (hfused op hkind) hup).trans (act_fresh_handover u op)
      have htaken : (u.redecide q e .handover).entry e = some ⟨h.checked.line, q, .fusingFresh, []⟩ := by
        rw [hact]
        exact State.entry_setEntry_self ..
      rw [hwalk, handoverWalk_cons_taken htaken, hact, hline]
      simp only [u, State.setEntry_modPort, State.setEntry_setHandover, State.setEntry_setRecord, State.setEntry_setEntry]
      rfl
    · have hact := (State.redecide_of_up (s := u) hh (hplain hkind) hup).trans (act_plain_handover u)
      have hstill : (u.redecide q e .handover).entry e = none := by
        rw [hact]
        exact hempty
      rw [hwalk, handoverWalk_cons_free hstill, hact]
      rfl
    · have hproceeds : ∃ a, (u.releaseHeldPlace q).stage q h.checked (some e) = .proceed a := by
        obtain hk | hk | ⟨op, hk⟩ | ⟨hk, hroom⟩ := hkind
        exacts [⟨_, hplain (.inl hk)⟩, ⟨_, hplain (.inr hk)⟩, ⟨_, hfused op hk⟩, ⟨_, hlock hk hroom⟩]
      obtain ⟨a, hstage⟩ := hproceeds
      have hact := State.redecide_of_down (s := u) (via := .handover) (by decide) hh hstage hdown
      have hstill : (u.redecide q e .handover).entry e = none := by
        rw [hact]
        exact hempty
      rw [hwalk, handoverWalk_cons_free hstill, hact]
      rfl

/-! ### An entry given to a port that waits for one (R76) -/

section

variable {s : State} {e f : EntryIx} {q : Port} {h : HeldPlace} {via : Via} {y : Entry}

theorem State.parked_releaseHeldPlace (s : State) (q r : Port) : (s.releaseHeldPlace q).parked r = s.parked r := by
  unfold State.parked State.releaseHeldPlace
  by_cases hr : r = q
  · subst hr
    rw [State.port_modPort_self]
  · rw [State.port_modPort_of_ne _ _ _ _ hr]

theorem State.tryPark_releaseHeldPlace (s : State) (q : Port) (f : EntryIx) :
    (s.releaseHeldPlace q).tryPark q f = s.tryPark q f := by
  have hchain : (s.releaseHeldPlace q).chainCloses q 4 f = s.chainCloses q 4 f :=
    chainCloses_congr (s := s) (t := s.releaseHeldPlace q) (fun _ => rfl) (s.parked_releaseHeldPlace q) 4 f
  rw [State.tryPark, State.tryPark, hchain]

theorem State.LinesDistinct.lineEntry (hd : s.LinesDistinct) (hy : s.entry f = some y) : s.lineEntry y.line = some f := by
  cases hl : s.lineEntry y.line with
  | none => exact absurd rfl (State.lineEntry_eq_none_iff.mp hl f y hy)
  | some g =>
    obtain ⟨z, hz, hline⟩ := State.lineEntry_spec hl
    exact congrArg some (hd g f z y hz hy hline)

/-- A re-decided request that parks stays the held place (R8, R76). -/
theorem State.redecide_of_park (hvia : via ≠ .decision) (hh : (s.port q).held = some h) (hy : s.entry f = some y)
    (hstage : (s.releaseHeldPlace q).stage q h.checked (some e) = .park f) : s.redecide q e via =
      (s.setEntry f (some { y with waiters := y.waiters ++ [q] })).modPort q (fun z => z.setResp h.id .parked) := by
  let u := s.setEntry f (some { y with waiters := y.waiters ++ [q] })
  have hy' : (s.releaseHeldPlace q).entry f = some y := hy
  have hpushed : (s.releaseHeldPlace q).setWaiters f ((((s.releaseHeldPlace q).entry f).map Entry.waiters).getD [] ++ [q]) =
      u.releaseHeldPlace q := by
    rw [State.setWaiters_eq_modEntry, State.modEntry_of_some _ hy', hy']
    rfl
  have hheld : (again q h via).hold (u.releaseHeldPlace q) = u := by
    have hsame : (again q h via).hold (u.releaseHeldPlace q) = u.modPort q id := by
      refine (State.modPort_modPort ..).trans (State.modPort_congr _ _ _ _ ?_)
      have hport : u.port q = s.port q := rfl
      rw [hport, ← hh]
      rfl
    rw [hsame, State.modPort_id]
  rw [State.redecide_of_held hh, hstage, Asking.carryOut, hpushed, hheld]
  cases via with
  | decision => exact absurd rfl hvia
  | handover => rfl
  | gift => rfl

theorem State.redecide_of_refuse {o : OutcomeCode} (hvia : via ≠ .decision) (hh : (s.port q).held = some h)
    (hstage : (s.releaseHeldPlace q).stage q h.checked (some e) = .refuse o) :
    s.redecide q e via = s.modPort q (fun x => x.redecided h.id (.complete ⟨o, 0, Flags.zero⟩)) := by
  rw [State.redecide_of_held hh, hstage, ← again_refuse hvia]
  rfl

/-- A waiting locker whose line another holds goes to the wait-for check (R76). -/
theorem State.stage_released_of_line (hkind : h.checked.kind = .lockRead ∧ (s.heldLines q).length < (s.port q).profile.lockLimit.toNat ∨
      ∃ op, h.checked.kind = .fused op) (hown : s.own q h.checked.line = none) (hf : s.lineEntry h.checked.line = some f) :
    (s.releaseHeldPlace q).stage q h.checked (some e) = s.tryPark q f := by
  have hpark : (s.releaseHeldPlace q).WouldPark q h.checked := by
    refine .inr (.inr (hkind.imp_left fun ⟨hk, hroom⟩ => ⟨hk, ?_⟩))
    rw [State.releaseHeldPlace, State.port_modPort_self]
    exact hroom
  rw [← State.tryPark_releaseHeldPlace]
  exact State.stage_of_wouldPark hpark (.inl hown) hf _

end

/-- Settles O21: the first port of the list is re-decided with the entry to take. -/
theorem freedEntryGoesToTheEntryWaitList : Obligations.FreedEntryGoesToTheEntryWaitList := by
  intro s e x q rest h hx hw hwait hh hown on
  have hempty : on.entry e = none := State.entry_setEntry_self s e none
  have hgive : s.freeEntry e = giveEntry e (q :: rest) (s.setEntry e none) := by
    rw [State.freeEntry_of_some hx, hw, handoverWalk, State.table_entryWait_setEntry, hwait]
  have hnext : ∀ t, on.redecide q e .gift = t → t.entry e = none → s.freeEntry e = giveEntry e rest t := by
    rintro t rfl hstill
    rw [hgive, giveEntry_cons_free hstill]
  have htaken : ∀ t y, on.redecide q e .gift = t → t.entry e = some y → s.freeEntry e = t := by
    rintro t y rfl hy
    rw [hgive, giveEntry_cons_taken hy]
  have hfreeLine : (∀ f y, s.entry f = some y → f ≠ e → y.line ≠ h.checked.line) → on.lineEntry h.checked.line = none := by
    intro hother
    refine lineEntry_eq_none fun f y hy => ?_
    have hne : f ≠ e := by rintro rfl; cases hempty.symm.trans hy
    exact hother f y ((State.entry_setEntry_of_ne s e none f hne).symm.trans hy) hne
  refine ⟨fun t ht => ⟨rfl, fun l p w => ?again⟩, fun f y hy hne hdistinct hline hkind => ?held, fun hother hdown hkind => ?down,
    fun hother hup => ⟨fun hkind hroom => ?acquire, fun op hkind => ?fresh⟩⟩
  case again =>
    rw [← handoverWalk_eq_freeEntry ht l p w []]
    rfl
  case held =>
    have hyon : on.entry f = some y := (State.entry_setEntry_of_ne s e none f hne).trans hy
    have hdistinctOn : on.LinesDistinct := hdistinct.setEntry_none e
    have hstage : (on.releaseHeldPlace q).stage q h.checked (some e) = on.tryPark q f :=
      State.stage_released_of_line hkind hown (hline ▸ hdistinctOn.lineEntry hyon)
    refine ⟨fun hopen => ?_, fun hcloses => ?_⟩
    · rw [State.tryPark_of_not_closes hopen] at hstage
      refine hnext _ (State.redecide_of_park (by decide) hh hyon hstage) ?_
      rw [State.entry_modPort, State.entry_setEntry_of_ne _ _ _ _ hne.symm]
      exact hempty
    · rw [State.tryPark_of_closes hcloses] at hstage
      exact hnext _ (State.redecide_of_refuse (by decide) hh hstage) hempty
  case down =>
    have hproceeds : ∃ a, (on.releaseHeldPlace q).stage q h.checked (some e) = .proceed a := by
      obtain ⟨hk, hroom⟩ | ⟨op, hk⟩ := hkind
      · exact ⟨_, State.stage_lockRead_released hk hown hroom (hfreeLine hother)⟩
      · exact ⟨_, State.stage_fused_released hk hown (hfreeLine hother)⟩
    obtain ⟨a, hstage⟩ := hproceeds
    exact hnext _ (State.redecide_of_down (by decide) hh hstage hdown) hempty
  case acquire =>
    have hstage := State.stage_lockRead_released (s := on) (e := e) hkind hown hroom (hfreeLine hother)
    have hact := (State.redecide_of_up (s := on) hh hstage hup).trans (act_acquire_gift on)
    rw [htaken _ _ hact (State.entry_setEntry_self on e _)]
    simp only [on, State.setEntry_setEntryWait, State.setEntry_setEntry]
    rfl
  case fresh =>
    have hstage := State.stage_fused_released (s := on) (e := e) hkind hown (hfreeLine hother)
    have hact := (State.redecide_of_up (s := on) hh hstage hup).trans (act_fresh_gift on op)
    rw [htaken _ _ hact (State.entry_setEntry_self on e _)]
    simp only [on, State.setEntry_setEntryWait, State.setEntry_setEntry]
    rfl

end Sys2Proof.Machine

/-! PROOF. Hold timers (O23) and the arbiter's grants (O27, O28): what an expiry reports over each fault record, and which waiting
work is chosen. -/

namespace Sys2Proof.Machine

/-! ### A report over each fault record (R156) -/

section

variable {s : State} {p : Port} {r : Report}

theorem State.report_of_empty (hs : (s.port p).state = .active ∨ (s.port p).state = .paused) (hf : (s.port p).fault = .empty) :
    s.report p r = .of (s.modPort p (fun y => { y with fault := .first r })) := by
  have hfenced : (s.port p).fencedBy = false := by
    obtain hs | hs := hs <;> simp only [PortIf.fencedBy, hs, hf]
  have htaken : (s.port p).takeReport r = { s.port p with fault := .first r } := by
    obtain hs | hs := hs <;> simp only [PortIf.takeReport, hs, hf]
  rw [State.report, hfenced, State.modPort_congr s p _ (fun y => { y with fault := .first r }) htaken]
  rfl

theorem State.report_of_first {first : Report} (hs : (s.port p).state = .active ∨ (s.port p).state = .paused)
    (hf : (s.port p).fault = .first first) :
    s.report p r = ⟨s.modPort p (fun y => { y with fault := .two first r.kind, state := .fenced }), [p]⟩ := by
  have hfenced : (s.port p).fencedBy = true := by
    obtain hs | hs := hs <;> simp only [PortIf.fencedBy, hs, hf]
  have htaken : (s.port p).takeReport r = { s.port p with fault := .two first r.kind, state := .fenced } := by
    obtain hs | hs := hs <;> simp only [PortIf.takeReport, hs, hf]
  rw [State.report, hfenced, State.modPort_congr s p _ (fun y => { y with fault := .two first r.kind, state := .fenced }) htaken]
  rfl

theorem State.report_of_two {first : Report} {k : FaultKind} (hf : (s.port p).fault = .two first k) : s.report p r = .of s := by
  have hfenced : (s.port p).fencedBy = false := by
    unfold PortIf.fencedBy
    rw [hf]
    cases (s.port p).state <;> rfl
  have htaken : (s.port p).takeReport r = id (s.port p) := by
    unfold PortIf.takeReport
    rw [hf]
    cases (s.port p).state <;> rfl
  rw [State.report, hfenced, State.modPort_congr s p _ id htaken, State.modPort_id]
  rfl

end

/-! ### An expiry (R83, R84) -/

section

variable {s : State} {e : EntryIx} {x : Entry}

/-- What an expiry has done before its report: the owner's line BROKEN, the entry freed with handover. -/
def State.broken (s : State) (e : EntryIx) (x : Entry) : State := (s.changeHeld x.owner x.line (.broken .timeout)).freeEntry e

theorem State.tableWork_broken (s : State) (e : EntryIx) (x : Entry) : TableWork s (s.broken e x) :=
  (TableWork.changeHeld ..).trans (TableWork.freeEntry ..)

theorem State.expire_of_some (hx : s.entry e = some x) : s.expire e = (s.broken e x).report x.owner (expiryReport x.line) := by
  rw [State.expire, hx]
  rfl

/-- The owner of an entry can take a report: it is in service (R156). -/
def State.OwnerServes (s : State) (x : Entry) : Prop := (s.port x.owner).state = .active ∨ (s.port x.owner).state = .paused

theorem State.OwnerServes.broken (h : s.OwnerServes x) (e : EntryIx) (y : Entry) : (s.broken e y).OwnerServes x := by
  rw [State.OwnerServes, (s.tableWork_broken e y).state]
  exact h

theorem State.expire_of_empty (hx : s.entry e = some x) (hs : s.OwnerServes x) (hf : (s.port x.owner).fault = .empty) :
    s.expire e = .of ((s.broken e x).modPort x.owner
      (fun y => { y with fault := .first ⟨.holdExpired, x.line ++ (0 : BitVec 4), none⟩ })) := by
  rw [State.expire_of_some hx]
  exact State.report_of_empty (hs.broken e x) (((s.tableWork_broken e x).fault _).trans hf)

theorem State.expire_of_first {first : Report} (hx : s.entry e = some x) (hs : s.OwnerServes x)
    (hf : (s.port x.owner).fault = .first first) : s.expire e =
      ⟨(s.broken e x).modPort x.owner (fun y => { y with fault := .two first .holdExpired, state := .fenced }), [x.owner]⟩ := by
  rw [State.expire_of_some hx]
  exact State.report_of_first (hs.broken e x) (((s.tableWork_broken e x).fault _).trans hf)

theorem State.expire_of_two {first : Report} {k : FaultKind} (hx : s.entry e = some x) (hf : (s.port x.owner).fault = .two first k) :
    s.expire e = .of (s.broken e x) := by
  rw [State.expire_of_some hx]
  exact State.report_of_two (((s.tableWork_broken e x).fault _).trans hf)

/-- An expiry with the fence that follows it (R84, R157). -/
theorem State.expire_settled (hx : s.entry e = some x) (hs : s.OwnerServes x) :
    (s.expire e).settled = s.expired e x (s.port x.owner).fault := by
  cases hf : (s.port x.owner).fault with
  | empty => rw [State.expire_of_empty hx hs hf, settled_of, State.broken, State.expired]
  | first first => rw [State.expire_of_first hx hs hf, State.broken, State.expired, After.settled, List.foldl_cons, List.foldl_nil]
  | two first k => rw [State.expire_of_two hx hf, settled_of, State.broken, State.expired]

theorem exec_holdExpiry_of (h : s.holdExpires e = true) : exec (.holdExpiry e) s = .next (s.expire e).settled := by
  simp only [exec, execHoldExpiry, h, if_true]

theorem exec_holdExpiry_of_not (h : ¬ s.holdExpires e = true) : exec (.holdExpiry e) s = .next s := by
  simp only [exec, execHoldExpiry, h]
  rfl

theorem exec_expiryDue_of (h : s.expiryFallsDue e = true) :
    exec (.expiryDue e) s = .next (s.setWork e (.fusingUnderLock 0 true)) := by
  simp only [exec, execExpiryDue, h, if_true]

theorem exec_expiryDue_of_not (h : ¬ s.expiryFallsDue e = true) : exec (.expiryDue e) s = .next s := by
  simp only [exec, execExpiryDue, h]
  rfl

end

/-- Settles O23: either event is taken exactly at its own work's zero, with the owner not PAUSED. -/
theorem holdTimerReachesZero : Obligations.HoldTimerReachesZero := by
  intro s e
  have hexpires : ∀ x, s.entry e = some x →
      (s.holdExpires e = true ↔ (s.port x.owner).state ≠ .paused ∧ x.work = .held 0) := fun x hx => by
    simp [State.holdExpires_iff, hx]
  have hfalls : ∀ x, s.entry e = some x →
      (s.expiryFallsDue e = true ↔ (s.port x.owner).state ≠ .paused ∧ x.work = .fusingUnderLock 0 false) := fun x hx => by
    simp [State.expiryFallsDue_iff, hx]
  refine ⟨fun hnone => ?free, fun x hx => ?_⟩
  case free =>
    exact ⟨exec_holdExpiry_of_not (by simp [State.holdExpires_iff, hnone]),
      exec_expiryDue_of_not (by simp [State.expiryFallsDue_iff, hnone])⟩
  have hnoExpiry : x.work ≠ .held 0 → exec (.holdExpiry e) s = .next s := fun h =>
    exec_holdExpiry_of_not fun hc => h ((hexpires x hx).mp hc).2
  have hnoDue : x.work ≠ .fusingUnderLock 0 false → exec (.expiryDue e) s = .next s := fun h =>
    exec_expiryDue_of_not fun hc => h ((hfalls x hx).mp hc).2
  refine ⟨fun n hn => ?above, hnoExpiry, hnoDue, fun hactive => ?active, fun hpaused => ?paused⟩
  case above =>
    obtain hw | ⟨due, hw⟩ := hn
    all_goals exact ⟨hnoExpiry (by simp [hw]), hnoDue (by simp [hw])⟩
  case active =>
    have hcounts : (s.port x.owner).state ≠ .paused := by simp [hactive]
    have hexpiry : x.work = .held 0 → exec (.holdExpiry e) s = .next (s.expired e x (s.port x.owner).fault) := fun hw => by
      rw [exec_holdExpiry_of ((hexpires x hx).mpr ⟨hcounts, hw⟩), State.expire_settled hx (.inl hactive)]
    refine ⟨fun hw hf => ?_, fun first hw hf => ?_, fun hw => ⟨?_, hnoExpiry (by simp [hw])⟩⟩
    · rw [hexpiry hw, hf]
      rfl
    · rw [hexpiry hw, hf]
      rfl
    · rw [exec_expiryDue_of ((hfalls x hx).mpr ⟨hcounts, hw⟩), State.setWork_eq_modEntry, State.modEntry_of_some _ hx]
  case paused =>
    exact ⟨exec_holdExpiry_of_not fun hc => ((hexpires x hx).mp hc).1 hpaused,
      exec_expiryDue_of_not fun hc => ((hfalls x hx).mp hc).1 hpaused⟩

/-! ### What the arbiter finds (R134, R135) -/

section

variable {s : State} {p : Port}

theorem State.grantOpen_iff : s.grantOpen = true ↔
    s.mem.state = .up ∧ s.mem.outstanding.length < 4 ∧ ∀ i ∈ s.mem.outstanding, i.accepted = true := by
  simp [State.grantOpen, and_assoc]

theorem oldestAwaiting_eq_none_iff {l : List RespEntry} :
    oldestAwaiting l = none ↔ ∀ r ∈ l, ∀ use t, r.state ≠ .awaitingGrant use t := by
  induction l with
  | nil => simp [oldestAwaiting]
  | cons r l ih =>
    obtain ⟨id, tag, kind, state⟩ := r
    cases state <;> simp [oldestAwaiting, ih]

theorem oldestAwaiting_append {older newer : List RespEntry} (hold : ∀ r ∈ older, ∀ u v, r.state ≠ .awaitingGrant u v) (id : Nat)
    (tag : Tag) (kind : BitVec 3) (use : TransferUse) (t : Transfer) :
    oldestAwaiting (older ++ ⟨id, tag, kind, .awaitingGrant use t⟩ :: newer) = some (id, use, t) := by
  induction older with
  | nil => rfl
  | cons r older ih =>
    have hr := hold r List.mem_cons_self
    have hrest := ih fun x hx => hold x (List.mem_cons_of_mem r hx)
    obtain ⟨i, g, k, state⟩ := r
    cases state with
    | awaitingGrant u v => exact absurd rfl (hr u v)
    | _ => exact hrest

theorem State.candidate_of_awaiting {id : Nat} {use : TransferUse} {t : Transfer}
    (h : oldestAwaiting (s.port p).resp = some (id, use, t)) : s.candidate p = some (.entry p id use t) := by
  rw [State.candidate, h]

theorem State.candidate_of_record {r : OpRecord} (h : oldestAwaiting (s.port p).resp = none) (hr : s.record p = some r)
    (hphase : r.phase = .reading .candidate) : s.candidate p = some (.operation p r.readTransfer) := by
  rw [State.candidate, h, hr]
  exact if_pos hphase

theorem State.candidate_isSome_iff : (s.candidate p).isSome = true ↔
    (∃ r ∈ (s.port p).resp, ∃ use t, r.state = .awaitingGrant use t) ∨
      ∃ r, s.record p = some r ∧ r.phase = .reading .candidate := by
  cases h : oldestAwaiting (s.port p).resp with
  | some w =>
    obtain ⟨id, use, t⟩ := w
    have hexists : ¬ ∀ r ∈ (s.port p).resp, ∀ use t, r.state ≠ .awaitingGrant use t := fun hall => by
      cases h.symm.trans (oldestAwaiting_eq_none_iff.mpr hall)
    rw [State.candidate_of_awaiting h]
    push Not at hexists
    exact iff_of_true rfl (.inl hexists)
  | none =>
    have hnone := oldestAwaiting_eq_none_iff.mp h
    have hleft : ¬ ∃ r ∈ (s.port p).resp, ∃ use t, r.state = .awaitingGrant use t := by
      push Not
      exact hnone
    simp only [hleft, false_or]
    cases hr : s.record p with
    | none => simp [State.candidate, h, hr]
    | some r =>
      by_cases hphase : r.phase = .reading .candidate
      · simp [State.candidate_of_record h hr hphase, hphase]
      · simp [State.candidate, h, hr, hphase]

theorem mem_roundRobin (pointer q : Port) : q ∈ roundRobin pointer := by
  revert pointer q
  decide

theorem State.choice_isSome_iff : s.choice.isSome = true ↔
    s.ops.writeBack ≠ [] ∨ s.table.handover ≠ [] ∨ ∃ q, (s.candidate q).isSome = true := by
  cases hwrite : s.ops.writeBack with
  | cons i rest => simp [State.choice, hwrite]
  | nil =>
    cases hover : s.table.handover with
    | cons i rest => simp [State.choice, hwrite, hover]
    | nil => simp [State.choice, hwrite, hover, List.findSome?_isSome_iff, mem_roundRobin]

theorem State.choice_of_candidate {before after : List Port} {w : Work} (hwrite : s.ops.writeBack = []) (hover : s.table.handover = [])
    (hturn : roundRobin s.mem.pointer = before ++ p :: after) (hbefore : ∀ q ∈ before, s.candidate q = none)
    (hp : s.candidate p = some w) : s.choice = some w := by
  have hnone : before.findSome? s.candidate = none := List.findSome?_eq_none_iff.mpr hbefore
  simp [State.choice, hwrite, hover, hturn, List.findSome?_append, hnone, hp]

theorem exec_grant_of_choice {w : Work} (hopen : s.grantOpen = true) (hw : s.choice = some w) :
    exec .grant s = .next (s.grantWork w) := by
  simp only [exec, execGrant, hopen, if_true, hw]

theorem exec_grant_of_not_due (h : s.grantDue = false) : exec .grant s = .next s := by
  simp only [exec, execGrant]
  split
  case isFalse => rfl
  case isTrue hopen =>
    have hnone : s.choice = none := by simpa [State.grantDue, hopen] using h
    rw [hnone]

theorem State.setPhase_of_some {r : OpRecord} (hr : s.record p = some r) (f : OpPhase → OpPhase) :
    s.setPhase p f = s.setRecord p (some { r with phase := f r.phase }) := by
  rw [State.setPhase, hr]

end

/-- Settles O27. -/
theorem grantServesTheListsFirst : Obligations.GrantServesTheListsFirst := by
  intro s workWaits
  refine ⟨State.grantOpen_iff, ?due, exec_grant_of_not_due, fun hopen => ⟨fun i rest r m res f hwrite hr hphase => ?writeBack,
    fun p id use t rest hwrite hover => ?request, fun p t rest r hwrite hover hr => ?operation⟩⟩
  case due =>
    simp only [State.grantDue, Bool.and_eq_true, State.choice_isSome_iff, State.candidate_isSome_iff]
    rfl
  case writeBack =>
    have hchoice : s.choice = some (.writeBack i rest) := by rw [State.choice, hwrite]
    have hphase' : (s.setWriteBack rest).setPhase i.port OpPhase.granted =
        (s.setWriteBack rest).setRecord i.port (some { r with phase := .writing m res f }) := by
      rw [State.setPhase_of_some (s := s.setWriteBack rest) hr, hphase]
      rfl
    rw [exec_grant_of_choice hopen hchoice, State.grantWork, hphase']
    rfl
  case request =>
    have hchoice : s.choice = some (.handover ⟨p, .request id use, t⟩ rest) := by rw [State.choice, hwrite, hover]
    rw [exec_grant_of_choice hopen hchoice]
    rfl
  case operation =>
    have hchoice : s.choice = some (.handover ⟨p, .operationRead, t⟩ rest) := by rw [State.choice, hwrite, hover]
    rw [exec_grant_of_choice hopen hchoice, State.grantWork, State.setPhase_of_some (s := s.setHandover rest) hr]
    rfl

/-- Settles O28. -/
theorem grantServesThePortsInTurn : Obligations.GrantServesThePortsInTurn := by
  intro s p before after hopen hwrite hover hturn hbefore
  refine ⟨fun older newer id tag kind use t hresp holder => ?entry, fun r hnone hr hphase => ?operation⟩
  case entry =>
    have hcandidate : s.candidate p = some (.entry p id use t) := by
      refine State.candidate_of_awaiting ?_
      rw [hresp]
      exact oldestAwaiting_append holder id tag kind use t
    rw [exec_grant_of_choice hopen (State.choice_of_candidate hwrite hover hturn hbefore hcandidate)]
    rfl
  case operation =>
    have hcandidate := State.candidate_of_record (oldestAwaiting_eq_none_iff.mpr hnone) hr hphase
    rw [exec_grant_of_choice hopen (State.choice_of_candidate hwrite hover hturn hbefore hcandidate), State.grantWork,
      State.setPhase_of_some hr]
    rfl

end Sys2Proof.Machine

/-! PROOF. A completion of the front transfer, and what each origin makes of it (O30..O34); transfers that fail (O36, O37). -/

namespace Sys2Proof.Machine

/-! ### The completion of the front (R131, R141) -/

section

variable {s : State} {i : OutItem} {rest : List OutItem}

theorem State.limitReached_eq_false (h : s.FrontInTime s.mem.outstanding) : s.limitReached = false := by
  unfold State.limitReached
  cases hout : s.mem.outstanding with
  | nil => simp
  | cons i rest =>
    have hlt := h i (by rw [hout, List.head?_cons])
    simp [Nat.not_le.mpr hlt]

theorem State.moveLimit_of_inTime (h : s.FrontInTime s.mem.outstanding) : s.moveLimit = .of s := by
  rw [State.moveLimit, s.limitReached_eq_false h]
  rfl

theorem After.andThen_of (a : After) {f : State → After} (h : f a.state = .of a.state) : a.andThen f = a := by
  obtain ⟨t, l⟩ := a
  simp only [After.andThen, h, After.of, List.append_nil]

/-- What a transfer that reaches its origin leaves for the next to be measured by. -/
theorem State.frontInTime_hand {l : List OutItem} (h : s.FrontInTime l) (i : OutItem) (b : Brought) :
    (s.hand i b).state.FrontInTime l := by
  have hwork := EventWork.hand s i b
  intro j hj
  rw [State.limitTime, State.perMicrosecond, hwork.limit, hwork.clock]
  exact h j hj

theorem exec_completion {status : CompletionStatus} {data : Word} (hup : s.mem.state = .up) :
    exec (.completion status data) s = .next (s.completeFront (CompletionStatus.brings status data)).settled := by
  simp only [exec, execCompletion, hup]

/-- The front transfer completes, and the limit passes to the next (R131, R141). -/
theorem exec_completion_of_accepted {status : CompletionStatus} {data : Word} (hup : s.mem.state = .up)
    (hout : s.mem.outstanding = i :: rest) (ha : i.accepted = true) : exec (.completion status data) s =
      .next (((s.popFront rest).hand i (CompletionStatus.brings status data)).andThen State.moveLimit).settled := by
  have hany : (i :: rest).any OutItem.accepted = true := by simp [ha]
  simp only [exec_completion hup, State.completeFront, hout, hany, if_true]
  rfl

theorem exec_completion_of_inTime {status : CompletionStatus} {data : Word} (hup : s.mem.state = .up)
    (hout : s.mem.outstanding = i :: rest) (ha : i.accepted = true) (htime : s.FrontInTime rest) :
    exec (.completion status data) s = .next ((s.popFront rest).hand i (CompletionStatus.brings status data)).settled := by
  have hpopped : (s.popFront rest).FrontInTime rest := htime
  rw [exec_completion_of_accepted hup hout ha, After.andThen_of]
  refine State.moveLimit_of_inTime ?_
  rw [hand_mem]
  exact State.frontInTime_hand hpopped i _

theorem exec_completion_of_front {status : CompletionStatus} {data : Word} (h : s.Front i rest) :
    exec (.completion status data) s = .next ((s.popFront rest).hand i (CompletionStatus.brings status data)).settled := by
  obtain ⟨hup, hout, ha, htime⟩ := h
  exact exec_completion_of_inTime hup hout ha htime

end

/-! ### What each origin makes of a transfer -/

section

variable {s : State} {i : OutItem} {p : Port} {id : Nat} {e : EntryIx} {x : Entry} {r : OpRecord}

/-- A response-list entry answered (R15). -/
theorem State.answer_eq (s : State) (p : Port) (id : Nat) (a : Answer) :
    s.answer p id a = s.modPort p (fun y => y.setResp id (.complete a)) := rfl

theorem Brought.plainAnswer_ok (d : Word) (t : Transfer) :
    Brought.plainAnswer (.ok d) t = ⟨.done, if t.dir = .read then t.width.low d else 0, Flags.zero⟩ := by
  obtain ⟨dir, addr, width, data⟩ := t
  cases dir <;> rfl

theorem State.hand_plain (ho : i.origin = .request p id .plain) (b : Brought) :
    s.hand i b = .of (s.answer p id (b.plainAnswer i.transfer)) := by
  rw [State.hand, ho]

theorem State.hand_acquire (ho : i.origin = .request p id (.acquire e)) (b : Brought) :
    s.hand i b = .of (s.acquireBack p id e i.transfer b) := by
  rw [State.hand, ho]

theorem State.hand_release (ho : i.origin = .request p id (.release e)) (b : Brought) :
    s.hand i b = .of (s.releaseBack p id e b) := by
  rw [State.hand, ho]

theorem State.hand_operationRead (ho : i.origin = .operationRead p) (b : Brought) : s.hand i b = s.operationReadBack p b := by
  rw [State.hand, ho]

theorem State.hand_writeBack (ho : i.origin = .writeBack p) (b : Brought) : s.hand i b = s.writeBackBack p b := by
  rw [State.hand, ho]

theorem State.acquireBack_of_detached (hx : s.entry e = some x) (hd : x.work.detached = true) (t : Transfer) (b : Brought) :
    s.acquireBack p id e t b = (s.answer p id (Answer.plain .fenced)).freeEntry e := by
  simp only [State.acquireBack, hx, hd, if_true]

theorem State.acquireBack_ok (hx : s.entry e = some x) (hd : x.work.detached = false) (t : Transfer) (d : Word) :
    s.acquireBack p id e t (.ok d) =
      ((s.setEntry e (some { x with work := .held (s.holdTime p) })).changeHeld p x.line .held).answer p id
        (Brought.plainAnswer (.ok d) t) := by
  have hwork : s.setWork e (.held (s.holdTime p)) = s.setEntry e (some { x with work := .held (s.holdTime p) }) := by
    rw [State.setWork_eq_modEntry, State.modEntry_of_some _ hx]
  simp only [State.acquireBack, hx, hd, Bool.false_eq_true, if_false, hwork]

theorem State.acquireBack_failed (hx : s.entry e = some x) (hd : x.work.detached = false) (t : Transfer) :
    s.acquireBack p id e t .failed = ((s.leaveHeld p x.line).answer p id (Answer.plain .memError)).freeEntry e := by
  simp only [State.acquireBack, hx, hd, Bool.false_eq_true, if_false, Brought.plainAnswer]

theorem State.releaseBack_of_detached (hx : s.entry e = some x) (hd : x.work.detached = true) (b : Brought) :
    s.releaseBack p id e b = (s.answer p id b.wrote).freeEntry e := by
  simp only [State.releaseBack, hx, hd, if_true]

theorem State.releaseBack_of_attached (hx : s.entry e = some x) (hd : x.work.detached = false) (b : Brought) :
    s.releaseBack p id e b = ((s.leaveHeld p x.line).answer p id b.wrote).freeEntry e := by
  simp only [State.releaseBack, hx, hd, Bool.false_eq_true, if_false]

theorem State.operationReadBack_ok (hr : s.record p = some r) (d : Word) :
    s.operationReadBack p (.ok d) = s.operationReadDone p r d := by
  simp only [State.operationReadBack, hr]

theorem State.operationReadBack_failed (hr : s.record p = some r) :
    s.operationReadBack p .failed = s.finish p r (Answer.plain .memError) := by
  simp only [State.operationReadBack, hr]

theorem State.writeBackBack_ok (hr : s.record p = some r) (d : Word) : s.writeBackBack p (.ok d) = s.finish p r r.doneAnswer := by
  simp only [State.writeBackBack, hr]

theorem State.writeBackBack_failed (hr : s.record p = some r) :
    s.writeBackBack p .failed = s.finish p r (Answer.plain .memError) := by
  simp only [State.writeBackBack, hr]

/-! #### The finish of an operation (R121) -/

/-- The record has left the operation unit and its response-list entry is answered, before the entry leaves FUSING. -/
def State.finished (s : State) (p : Port) (r : OpRecord) (a : Answer) : State :=
  (s.setRecord p none).modPort p (fun y => y.setResp r.respId (.complete a))

theorem State.tableWork_finished (s : State) (p : Port) (r : OpRecord) (a : Answer) : TableWork s (s.finished p r a) :=
  (TableWork.setRecord ..).trans (TableWork.answer ..)

theorem State.releaseOperation_of_freed (hx : s.entry e = some x) (hw : x.work = .fusingFresh ∨ x.work = .fusingDetached) :
    s.releaseOperation e = .of (s.freeEntry e) := by
  obtain hw | hw := hw <;> simp only [State.releaseOperation, hx, Option.map_some, hw]

/-- The entry back in HELD with the time it has left (R121). -/
def State.reheld (s : State) (e : EntryIx) (x : Entry) (n : Nat) : State := s.setEntry e (some { x with work := .held n })

theorem State.releaseOperation_of_underLock {n : Nat} (hx : s.entry e = some x) (hw : x.work = .fusingUnderLock n false) :
    s.releaseOperation e = .of (s.reheld e x n) := by
  simp only [State.releaseOperation, hx, Option.map_some, hw, State.setWork, State.reheld]

theorem State.releaseOperation_of_due {n : Nat} (hx : s.entry e = some x) (hw : x.work = .fusingUnderLock n true) :
    s.releaseOperation e = (s.reheld e x n).expire e := by
  simp only [State.releaseOperation, hx, Option.map_some, hw, State.setWork, State.reheld]

theorem State.finish_of_freed (hx : s.entry r.entry = some x) (hw : x.work = .fusingFresh ∨ x.work = .fusingDetached) (a : Answer) :
    s.finish p r a = .of ((s.finished p r a).freeEntry r.entry) :=
  State.releaseOperation_of_freed (s := s.finished p r a) hx hw

theorem State.finish_of_underLock {n : Nat} (hx : s.entry r.entry = some x) (hw : x.work = .fusingUnderLock n false) (a : Answer) :
    s.finish p r a = .of ((s.finished p r a).reheld r.entry x n) :=
  State.releaseOperation_of_underLock (s := s.finished p r a) hx hw

theorem State.finish_of_due {n : Nat} (hx : s.entry r.entry = some x) (hw : x.work = .fusingUnderLock n true) (a : Answer) :
    s.finish p r a = ((s.finished p r a).reheld r.entry x n).expire r.entry :=
  State.releaseOperation_of_due (s := s.finished p r a) hx hw

/-- At a deferred expiry the owner's interface stands as before the finish, but for its response list. -/
theorem State.owner_reheld (s : State) (p : Port) (r : OpRecord) (a : Answer) (x : Entry) (n : Nat) :
    (((s.finished p r a).reheld r.entry x n).port x.owner).state = (s.port x.owner).state ∧
      (((s.finished p r a).reheld r.entry x n).port x.owner).fault = (s.port x.owner).fault :=
  ⟨(s.tableWork_finished p r a).state x.owner, (s.tableWork_finished p r a).fault x.owner⟩

/-- A finish with the fence that a deferred expiry may bring (R81, R121). -/
theorem State.finish_settled (hx : s.entry r.entry = some x) (a : Answer) :
    (x.work = .fusingFresh ∨ x.work = .fusingDetached → (s.finish p r a).settled = (s.finished p r a).freeEntry r.entry) ∧
      (∀ n, x.work = .fusingUnderLock n false → (s.finish p r a).settled = (s.finished p r a).reheld r.entry x n) ∧
      (∀ n, x.work = .fusingUnderLock n true → s.OwnerServes x →
        (s.finish p r a).settled = ((s.finished p r a).reheld r.entry x n).expired r.entry x (s.port x.owner).fault) := by
  refine ⟨fun hw => ?_, fun n hw => ?_, fun n hw hs => ?_⟩
  · rw [State.finish_of_freed hx hw, settled_of]
  · rw [State.finish_of_underLock hx hw, settled_of]
  · obtain ⟨hstate, hfault⟩ := s.owner_reheld p r a x n
    have hback : ((s.finished p r a).reheld r.entry x n).entry r.entry = some { x with work := .held n } :=
      State.entry_setEntry_self ..
    have hserves : ((s.finished p r a).reheld r.entry x n).OwnerServes { x with work := .held n } := by
      unfold State.OwnerServes
      rw [hstate]
      exact hs
    rw [State.finish_of_due hx hw, State.expire_settled hback hserves, hfault]
    rfl

end

/-- Settles O30. -/
theorem plainTransferCompletes : Obligations.PlainTransferCompletes := by
  intro s i rest p id data h ho
  constructor
  · rw [exec_completion_of_front h, State.hand_plain ho, settled_of, CompletionStatus.brings, Brought.plainAnswer_ok]
    rfl
  · rw [exec_completion_of_front h, State.hand_plain ho, settled_of]
    rfl

/-- Settles O31. -/
theorem acquireReadCompletes : Obligations.AcquireReadCompletes := by
  intro s i rest p id e x data h ho hdir hx _
  have hx' : (s.popFront rest).entry e = some x := hx
  refine ⟨fun hw => ⟨?ok, ?failed⟩, fun hw status => ?detached⟩
  case ok =>
    rw [exec_completion_of_front h, State.hand_acquire ho, settled_of, CompletionStatus.brings,
      State.acquireBack_ok hx' (by rw [hw]; rfl), Brought.plainAnswer_ok, if_pos hdir]
    rfl
  case failed =>
    rw [exec_completion_of_front h, State.hand_acquire ho, settled_of, CompletionStatus.brings,
      State.acquireBack_failed hx' (by rw [hw]; rfl)]
    rfl
  case detached =>
    rw [exec_completion_of_front h, State.hand_acquire ho, settled_of, State.acquireBack_of_detached hx' (by rw [hw]; rfl)]
    rfl

/-- Settles O32. -/
theorem releaseWriteCompletes : Obligations.ReleaseWriteCompletes := by
  intro s i rest p id e x data status h ho hx a
  have hx' : (s.popFront rest).entry e = some x := hx
  have hanswer : (CompletionStatus.brings status data).wrote = a := by cases status <;> rfl
  refine ⟨fun hw => ?_, fun hw => ?_⟩
  · rw [exec_completion_of_front h, State.hand_release ho, settled_of, State.releaseBack_of_attached hx' (by rw [hw]; rfl), hanswer]
    rfl
  · rw [exec_completion_of_front h, State.hand_release ho, settled_of, State.releaseBack_of_detached hx' (by rw [hw]; rfl), hanswer]
    rfl

/-- Settles O33. -/
theorem operationReadCompletes : Obligations.OperationReadCompletes := by
  intro s i rest p r data h ho hr u finished
  have hr' : (s.popFront rest).record p = some r := hr
  have hback : ∀ status, exec (.completion status data) s =
      .next ((s.popFront rest).operationReadBack p (CompletionStatus.brings status data)).settled := fun status => by
    rw [exec_completion_of_front h, State.hand_operationRead ho]
  refine ⟨fun hwrites => ?writes, fun status a hfinish x hx => ?finishes⟩
  case writes =>
    rw [hback, CompletionStatus.brings, State.operationReadBack_ok hr']
    simp only [State.operationReadDone]
    rw [if_pos hwrites, settled_of]
    rfl
  case finishes =>
    have hfinished : (s.popFront rest).operationReadBack p (CompletionStatus.brings status data) = (s.popFront rest).finish p r a := by
      obtain ⟨rfl, hwrites, rfl⟩ | ⟨rfl, rfl⟩ := hfinish
      · exact (State.operationReadBack_ok hr' data).trans (State.operationReadDone_of_not_writes _ p hwrites)
      · exact State.operationReadBack_failed hr'
    obtain ⟨hfreed, hheld, hdue⟩ := State.finish_settled (s := s.popFront rest) (p := p) (r := r) hx a
    rw [hback, hfinished]
    exact ⟨fun hw => congrArg _ (hfreed hw), fun n hw => congrArg _ (hheld n hw), fun n hw hs => congrArg _ (hdue n hw hs)⟩

/-- Settles O34. -/
theorem writeBackCompletes : Obligations.WriteBackCompletes := by
  intro s i rest p r x m res data f status h ho hr hphase hx t
  have hr' : (s.popFront rest).record p = some r := hr
  obtain ⟨a, hanswer, ht⟩ : ∃ a, (s.popFront rest).writeBackBack p (CompletionStatus.brings status data) =
      (s.popFront rest).finish p r a ∧ t = (s.popFront rest).finished p r a := by
    cases status with
    | ok => exact ⟨_, (State.writeBackBack_ok hr' data).trans (by rw [OpRecord.doneAnswer_of_writing hphase]), rfl⟩
    | dataError => exact ⟨_, State.writeBackBack_failed hr', rfl⟩
  obtain ⟨hfreed, hheld, hdue⟩ := State.finish_settled (s := s.popFront rest) (p := p) (r := r) hx a
  rw [exec_completion_of_front h, State.hand_writeBack ho, hanswer, ht]
  exact ⟨fun hw => congrArg _ (hfreed hw), fun n hw => congrArg _ (hheld n hw), fun n hw hs => congrArg _ (hdue n hw hs)⟩

end Sys2Proof.Machine

/-! PROOF. Transfers that fail (O36, O37): what a failure is to each origin, and the passage to DOWN over a list of transfers. -/

namespace Sys2Proof.Machine

section

variable {t : State} {p : Port} {r : OpRecord} {x : Entry}

/-- A deferred expiry at the finish of a failed operation, over each fault record of the owner (R81, R156). -/
theorem State.finish_due_expires {n : Nat} (hx : t.entry r.entry = some x) (hw : x.work = .fusingUnderLock n true)
    (hs : t.OwnerServes x) (a : Answer) :
    ((t.port x.owner).fault = .empty → t.finish p r a = .of ((((t.finished p r a).reheld r.entry x n).broken r.entry x).modPort x.owner
      (fun y => { y with fault := .first ⟨.holdExpired, x.line ++ (0 : BitVec 4), none⟩ }))) ∧
    (∀ f, (t.port x.owner).fault = .first f → t.finish p r a =
      ⟨(((t.finished p r a).reheld r.entry x n).broken r.entry x).modPort x.owner
        (fun y => { y with fault := .two f .holdExpired, state := .fenced }), [x.owner]⟩) ∧
    (∀ f k, (t.port x.owner).fault = .two f k →
      t.finish p r a = .of (((t.finished p r a).reheld r.entry x n).broken r.entry x)) := by
  obtain ⟨hstate, hfault⟩ := t.owner_reheld p r a x n
  have hback : ((t.finished p r a).reheld r.entry x n).entry r.entry = some { x with work := .held n } :=
    State.entry_setEntry_self ..
  have hserves : ((t.finished p r a).reheld r.entry x n).OwnerServes { x with work := .held n } := by
    unfold State.OwnerServes
    rw [hstate]
    exact hs
  rw [State.finish_of_due hx hw]
  exact ⟨fun hf => State.expire_of_empty (x := { x with work := .held n }) hback hserves (hfault.trans hf),
    fun f hf => State.expire_of_first (x := { x with work := .held n }) hback hserves (hfault.trans hf),
    fun f k hf => State.expire_of_two (x := { x with work := .held n }) hback (hfault.trans hf)⟩

end

/-- A failed transfer has at its origin the effect that the origin gives it (R138, R140). -/
theorem State.takesFailure_hand (t : State) (j : OutItem) : t.TakesFailure j (t.hand j .failed) := by
  have hfinish : ∀ p r x, t.entry r.entry = some x →
      (x.work = .fusingFresh ∨ x.work = .fusingDetached → t.finish p r (Answer.plain .memError) =
        .of ((t.finished p r (Answer.plain .memError)).freeEntry r.entry)) ∧
      (∀ n, x.work = .fusingUnderLock n false → t.finish p r (Answer.plain .memError) =
        .of ((t.finished p r (Answer.plain .memError)).reheld r.entry x n)) ∧
      (∀ n, x.work = .fusingUnderLock n true → t.OwnerServes x → t.finish p r (Answer.plain .memError) =
        let freed := ((t.finished p r (Answer.plain .memError)).reheld r.entry x n).broken r.entry x
        match (t.port x.owner).fault with
        | .empty => .of (freed.modPort x.owner
            (fun y => { y with fault := .first ⟨.holdExpired, x.line ++ (0 : BitVec 4), none⟩ }))
        | .first f => ⟨freed.modPort x.owner (fun y => { y with fault := .two f .holdExpired, state := .fenced }), [x.owner]⟩
        | .two _ _ => .of freed) := by
    intro p r x hx
    refine ⟨fun hw => State.finish_of_freed hx hw _, fun n hw => State.finish_of_underLock hx hw _, fun n hw hs => ?_⟩
    obtain ⟨hempty, hfirst, htwo⟩ := State.finish_due_expires (p := p) hx hw hs (Answer.plain .memError)
    cases hf : (t.port x.owner).fault with
    | empty => exact hempty hf
    | first f => exact hfirst f hf
    | two f k => exact htwo f k hf
  unfold State.TakesFailure
  cases ho : j.origin with
  | request p id use =>
    cases use with
    | plain => exact State.hand_plain ho _
    | acquire e =>
      rw [State.hand_acquire ho]
      exact fun x hx => ⟨fun hd => congrArg After.of (State.acquireBack_failed hx hd _),
        fun hd => congrArg After.of (State.acquireBack_of_detached hx hd _ _)⟩
    | release e =>
      rw [State.hand_release ho]
      exact fun x hx => ⟨fun hd => congrArg After.of (State.releaseBack_of_attached hx hd _),
        fun hd => congrArg After.of (State.releaseBack_of_detached hx hd _)⟩
  | operationRead p =>
    rw [State.hand_operationRead ho]
    intro failed finished r x hr hx
    rw [State.operationReadBack_failed hr]
    exact hfinish p r x hx
  | writeBack p =>
    rw [State.hand_writeBack ho]
    intro failed finished r x hr hx
    rw [State.writeBackBack_failed hr]
    exact hfinish p r x hx

/-! ### The write-back list through a failure (R140) -/

theorem report_writeBack (s : State) (p : Port) (r : Report) : (s.report p r).state.ops.writeBack = s.ops.writeBack := rfl

theorem expire_writeBack (s : State) (e : EntryIx) : (s.expire e).state.ops.writeBack = s.ops.writeBack := by
  cases hx : s.entry e with
  | none => rw [State.expire, hx]; rfl
  | some x => rw [State.expire_of_some hx, report_writeBack, (s.tableWork_broken e x).writeBack]

theorem releaseOperation_writeBack (s : State) (e : EntryIx) : (s.releaseOperation e).state.ops.writeBack = s.ops.writeBack := by
  unfold State.releaseOperation
  split
  · exact (TableWork.setWork ..).writeBack
  · exact (expire_writeBack ..).trans (TableWork.setWork ..).writeBack
  · exact (TableWork.freeEntry ..).writeBack
  · exact (TableWork.freeEntry ..).writeBack
  all_goals rfl

theorem finish_writeBack (s : State) (p : Port) (r : OpRecord) (a : Answer) :
    (s.finish p r a).state.ops.writeBack = s.ops.writeBack :=
  (releaseOperation_writeBack ..).trans (s.tableWork_finished p r a).writeBack

/-- A failed transfer adds nothing to the write-back list, and takes nothing from it. -/
theorem hand_failed_writeBack (s : State) (i : OutItem) : (s.hand i .failed).state.ops.writeBack = s.ops.writeBack := by
  cases ho : i.origin with
  | request p id use =>
    cases use with
    | plain => rw [State.hand_plain ho]; exact (TableWork.answer ..).writeBack
    | acquire e =>
      rw [State.hand_acquire ho]
      cases hx : s.entry e with
      | none => simp only [State.acquireBack, hx]; exact (TableWork.answer ..).writeBack
      | some x =>
        cases hd : x.work.detached with
        | true => rw [State.acquireBack_of_detached hx hd]; exact ((TableWork.answer ..).trans (TableWork.freeEntry ..)).writeBack
        | false =>
          rw [State.acquireBack_failed hx hd]
          exact (((TableWork.leaveHeld ..).trans (TableWork.answer ..)).trans (TableWork.freeEntry ..)).writeBack
    | release e =>
      rw [State.hand_release ho]
      cases hx : s.entry e with
      | none => simp only [State.releaseBack, hx]; exact (TableWork.answer ..).writeBack
      | some x =>
        cases hd : x.work.detached with
        | true => rw [State.releaseBack_of_detached hx hd]; exact ((TableWork.answer ..).trans (TableWork.freeEntry ..)).writeBack
        | false =>
          rw [State.releaseBack_of_attached hx hd]
          exact (((TableWork.leaveHeld ..).trans (TableWork.answer ..)).trans (TableWork.freeEntry ..)).writeBack
  | operationRead p =>
    rw [State.hand_operationRead ho]
    cases hr : s.record p with
    | none => simp only [State.operationReadBack, hr]; rfl
    | some r => rw [State.operationReadBack_failed hr]; exact finish_writeBack ..
  | writeBack p =>
    rw [State.hand_writeBack ho]
    cases hr : s.record p with
    | none => simp only [State.writeBackBack, hr]; rfl
    | some r => rw [State.writeBackBack_failed hr]; exact finish_writeBack ..

theorem failAll_writeBack (l : List OutItem) (a : After) : (failAll a l).state.ops.writeBack = a.state.ops.writeBack := by
  induction l generalizing a with
  | nil => rfl
  | cons i l ih => exact (ih _).trans (hand_failed_writeBack ..)

/-! ### The passage to DOWN (R140, R145) -/

/-- The ports fenced before a list of transfers fails stay in front of those fenced by it. -/
theorem failAll_fenced (k l : List Port) (s : State) (items : List OutItem) :
    failAll ⟨s, k ++ l⟩ items = ⟨(failAll ⟨s, l⟩ items).state, k ++ (failAll ⟨s, l⟩ items).fenced⟩ := by
  induction items generalizing s l with
  | nil => rfl
  | cons i items ih =>
    have hstep : After.andThen ⟨s, k ++ l⟩ (fun t => t.hand i .failed) =
        ⟨(s.hand i .failed).state, k ++ (l ++ (s.hand i .failed).fenced)⟩ := by
      rw [After.andThen, List.append_assoc]
    exact (congrArg (failAll · items) hstep).trans (ih _ _)

theorem failAll_single (s : State) (i : OutItem) : failAll (.of s) [i] = s.hand i .failed := rfl

theorem State.goDown_of {s : State} {items : List OutItem} (hout : s.mem.outstanding = items) (c : DownCause) :
    s.goDown c = failAll (.of (s.setMem { s.mem with state := .down c, outstanding := [] })) items := by
  rw [State.goDown, hout]

theorem exec_responseLimitExpiry_of {s : State} (h : s.limitReached = true) :
    exec .responseLimitExpiry s = .next (s.goDown .timeout).settled := by
  simp only [exec, execResponseLimitExpiry, h, if_true]

theorem exec_responseLimitExpiry_of_not {s : State} (h : ¬ s.limitReached = true) : exec .responseLimitExpiry s = .next s := by
  simp only [exec, execResponseLimitExpiry, h]
  rfl

theorem settled_hand_plain {s : State} {i : OutItem} {p : Port} {id : Nat} (ho : i.origin = .request p id .plain) (b : Brought) :
    (s.hand i b).settled = s.modPort p (fun x => x.setResp id (.complete (b.plainAnswer i.transfer))) := by
  rw [State.hand_plain ho, settled_of, State.answer_eq]

/-- Settles O36: with nothing accepted the list holds at most the offered transfer. -/
theorem unexpectedCompletionTakesThePortDown : Obligations.UnexpectedCompletionTakesThePortDown := by
  intro s status data hup
  have hsingle : ∀ i, s.mem.outstanding = [i] → i.accepted = false → exec (.completion status data) s =
      .next (((s.setMem { s.mem with state := .down .unexpected, outstanding := [] }).hand i .failed).settled) := by
    intro i hout ha
    have hany : ¬ [i].any OutItem.accepted = true := by simp [ha]
    simp only [exec_completion hup, State.completeFront, hout, if_neg hany, State.goDown_of hout, failAll_single]
  refine ⟨fun hout => ?empty, fun i hout ha => ⟨hsingle i hout ha, State.takesFailure_hand .., ?mem⟩, fun i p id hout ha ho => ?plain⟩
  case empty =>
    simp only [exec_completion hup, State.completeFront, hout, State.goDown_of hout]
    rw [show ∀ a, failAll a [] = a from fun _ => rfl, settled_of]
  case mem => rw [settled_mem, hand_mem, State.mem_setMem]
  case plain =>
    rw [hsingle i hout ha, settled_hand_plain ho]
    rfl

/-- The completed front has reached its origin, and the transfer behind it has reached the limit: it fails with the rest (R141). -/
theorem exec_completion_of_overdue {s : State} {i j : OutItem} {behind : List OutItem} {status : CompletionStatus} {data : Word}
    (hup : s.mem.state = .up) (hout : s.mem.outstanding = i :: j :: behind) (ha : i.accepted = true)
    (hlimit : s.mem.limit.toNat * s.perMicrosecond ≤ s.clock.now - j.issueTime) :
    let brought := (s.popFront (j :: behind)).hand i (CompletionStatus.brings status data)
    exec (.completion status data) s = .next (failAll
      ⟨brought.state.setMem { s.mem with state := .down .timeout, outstanding := [] }, brought.fenced⟩ (j :: behind)).settled := by
  intro brought
  have hmem : brought.state.mem = (s.popFront (j :: behind)).mem := hand_mem ..
  have hwork : EventWork (s.popFront (j :: behind)) brought.state := EventWork.hand ..
  have hreached : brought.state.limitReached = true := by
    rw [State.limitReached_iff, hmem, State.perMicrosecond, hwork.clock]
    exact ⟨hup, j, behind, rfl, hlimit⟩
  have hdown : brought.state.moveLimit =
      failAll (.of (brought.state.setMem { s.mem with state := .down .timeout, outstanding := [] })) (j :: behind) := by
    have houtstanding : brought.state.mem.outstanding = j :: behind := by rw [hmem]; rfl
    rw [State.moveLimit, if_pos hreached, State.goDown_of houtstanding, hmem]
    rfl
  have hfenced := failAll_fenced brought.fenced [] (brought.state.setMem { s.mem with state := .down .timeout, outstanding := [] })
    (j :: behind)
  rw [List.append_nil] at hfenced
  rw [exec_completion_of_accepted hup hout ha, hfenced]
  change Host.Outcome.next (After.settled ⟨brought.state.moveLimit.state, brought.fenced ++ brought.state.moveLimit.fenced⟩) = _
  rw [hdown]
  rfl

/-- Settles O37. -/
theorem responseLimitFailsEveryTransfer : Obligations.ResponseLimitFailsEveryTransfer := by
  intro s i rest hup hout
  refine ⟨fun hlimit => ?reached, fun hbefore => ?before, fun ha status data => ?completed⟩
  case reached =>
    have hreached : s.limitReached = true := State.limitReached_iff.mpr ⟨hup, i, rest, hout, hlimit⟩
    have hexec := exec_responseLimitExpiry_of hreached
    have hfailed := hexec
    rw [State.goDown_of hout] at hfailed
    refine ⟨hfailed, fun _ => rfl, fun _ _ _ => rfl, fun t j => t.takesFailure_hand j, ⟨_, hexec, ?_, ?_, ?_, ?_⟩,
      fun p id hrest ho => ?_⟩
    · rw [settled_mem, goDown_mem]
    · rw [(TableWork.settled _).writeBack]
      exact failAll_writeBack ..
    · exact (EventWork.settled (EventWork.goDown s _)).regions
    · exact (EventWork.settled (EventWork.goDown s _)).link
    · rw [hfailed, hrest, failAll_single, settled_hand_plain ho]
      rfl
  case before =>
    refine exec_responseLimitExpiry_of_not fun hreached => ?_
    obtain ⟨-, j, behind, hout', hlimit⟩ := State.limitReached_iff.mp hreached
    obtain ⟨rfl, -⟩ := List.cons.inj (hout.symm.trans hout')
    omega
  case completed =>
    intro brought down
    refine ⟨exec_completion_of_inTime hup hout ha, ?_, fun j behind hrest hlimit => ?_⟩
    · rintro rfl
      exact State.takesFailure_hand ..
    · subst hrest
      refine ⟨_, exec_completion_of_overdue hup hout ha hlimit, rfl, ?_, ?_⟩
      · rw [settled_mem, failAll_mem, State.mem_setMem]
      · rintro p id q id' a ho rfl ho' hanswer
        have hbrought : (CompletionStatus.brings status data).plainAnswer i.transfer = a := by
          obtain ⟨rfl, rfl⟩ | ⟨rfl, rfl⟩ := hanswer
          · exact Brought.plainAnswer_ok ..
          · rfl
        have hfirst : brought = .of ((s.popFront [j]).modPort p (fun x => x.setResp id (.complete a))) := by
          rw [← hbrought]
          exact State.hand_plain ho _
        rw [show (s.popFront [j]).hand i (CompletionStatus.brings status data) = brought from rfl, hfirst]
        exact settled_hand_plain (s := (s.setMem down).modPort p (fun x => x.setResp id (.complete a))) ho' .failed

end Sys2Proof.Machine

/-! PROOF. WRITE-PROFILE, PAUSE-PORT and RESUME-PORT at their points of effect (O46, O47), the read commands (O42), and the frames of
the maintenance link (O41). -/

namespace Sys2Proof.Machine

/-! ### Commands that name a port -/

section

variable {s : State} {p : Port} {b : Byte}

theorem exec_pausePort (hlink : s.link = .arguments .pausePort []) :
    exec (.pausePort b) s = .next ((s.withPort b s.pausePort).1.enterReply (s.withPort b s.pausePort).2) :=
  congrArg Host.Outcome.next (State.atLastArgument_of_link b _ hlink rfl)

theorem exec_resumePort (hlink : s.link = .arguments .resumePort []) :
    exec (.resumePort b) s = .next ((s.withPort b s.resumePort).1.enterReply (s.withPort b s.resumePort).2) :=
  congrArg Host.Outcome.next (State.atLastArgument_of_link b _ hlink rfl)

/-! ### PAUSE-PORT and RESUME-PORT (R23, R24) -/

theorem State.pausePort_of_active (h : (s.port p).state = .active) :
    s.pausePort p = ((s.modPort p (fun x => { x with state := .paused })).withdraw p, .just .ok) := by
  rw [State.pausePort, h]

theorem State.pausePort_of_paused (h : (s.port p).state = .paused) : s.pausePort p = (s, .just .ok) := by
  rw [State.pausePort, h]

theorem State.pausePort_out_of_service (h : (s.port p).state = .fenced ∨ (s.port p).state = .offline) :
    s.pausePort p = (s, .just .wrongState) := by
  obtain h | h := h <;> rw [State.pausePort, h]

theorem State.resumePort_of_paused (h : (s.port p).state = .paused) :
    s.resumePort p = (s.modPort p (fun x => { x with state := .active }), .just .ok) := by
  rw [State.resumePort, h]

theorem State.resumePort_of_active (h : (s.port p).state = .active) : s.resumePort p = (s, .just .ok) := by
  rw [State.resumePort, h]

theorem State.resumePort_out_of_service (h : (s.port p).state = .fenced ∨ (s.port p).state = .offline) :
    s.resumePort p = (s, .just .wrongState) := by
  obtain h | h := h <;> rw [State.resumePort, h]

end

theorem RespState.not_waits_iff {st : RespState} : (!st.waits) = decide (st ≠ .parked ∧ st ≠ .entryWait) := by
  cases st <;> simp [RespState.waits]

/-- The interlock table with port `p` on no waiter list and not on the entry-wait list, the others in order (R17). -/
def Interlock.withdrawn (t : Interlock) (p : Port) : Interlock := { t with
  entries := t.entries.map (Option.map (fun x => { x with waiters := x.waiters.filter (fun q => q != p) }))
  entryWait := t.entryWait.filter (fun q => q != p) }

/-- A withdrawal whole, after a change of the port's own state (R17). -/
theorem State.withdraw_modPort (s : State) (p : Port) (f : PortIf → PortIf) : (s.modPort p f).withdraw p =
    ({ s with table := s.table.withdrawn p } : State).modPort p (fun x => (f x).withdrawn) := by
  rw [State.withdraw, State.leaveLists_eq]
  exact State.modPort_modPort ({ s with table := s.table.withdrawn p } : State) p f PortIf.withdrawn

/-- Settles O47. -/
theorem pauseAndResumeThePort : Obligations.PauseAndResumeThePort := by
  intro s p b
  refine ⟨fun hlink => ?pause, fun hlink => ?resume⟩
  case pause =>
    rw [exec_pausePort hlink]
    refine ⟨fun hb => ?_, fun hb => ?_⟩
    · rw [State.withPort_of_ge s _ hb]
      rfl
    · rw [State.withPort_of_toNat_eq s _ hb]
      refine ⟨fun h => ?_, fun h => ?_, fun h => ?_⟩
      · rw [State.pausePort_of_active h, State.withdraw_modPort]
        simp only [← RespState.not_waits_iff]
        rfl
      · rw [State.pausePort_of_paused h]
        rfl
      · rw [State.pausePort_out_of_service h]
        rfl
  case resume =>
    rw [exec_resumePort hlink]
    refine ⟨fun hb => ?_, fun hb => ?_⟩
    · rw [State.withPort_of_ge s _ hb]
      rfl
    · rw [State.withPort_of_toNat_eq s _ hb]
      refine ⟨fun h => ?_, fun h => ?_, fun h => ?_⟩
      · rw [State.resumePort_of_paused h]
        rfl
      · rw [State.resumePort_of_active h]
        rfl
      · rw [State.resumePort_out_of_service h]
        rfl

/-! ### WRITE-PROFILE (R20, R27) -/

section

variable {s : State} {p : Port} {args : List Byte}

/-- The state of a lock limit's two bits (R20). -/
theorem lockLimit_iff (l : BitVec 2) : (l == 1 || l == 2) = false ↔ l = 0 ∨ l = 3 := by
  revert l
  decide

theorem profileAcceptable_eq_false_iff : profileAcceptable args = false ↔ (profileArg args).holdLimit = 0 ∨
    (profileArg args).lockLimit = 0 ∨ (profileArg args).lockLimit = 3 ∨ argByte args 5 ≠ ~~~ argByte args 2 := by
  simp only [profileAcceptable, Bool.and_eq_false_iff, lockLimit_iff, profileCheck, bne_eq_false_iff_eq, beq_eq_false_iff_ne,
    or_assoc, ne_eq]

theorem State.writeProfile_in_use (h : (s.port p).state = .active ∨ (s.port p).state = .fenced) :
    s.writeProfile p args = (s, .just .wrongState) := if_pos h

variable (hstate : (s.port p).state = .paused ∨ (s.port p).state = .offline)
include hstate

theorem State.not_in_use : ¬ ((s.port p).state = .active ∨ (s.port p).state = .fenced) := by
  obtain h | h := hstate <;> simp [h]

theorem State.writeProfile_bad (h : profileAcceptable args = false) : s.writeProfile p args = (s, .just .badArg) := by
  rw [State.writeProfile, if_neg (State.not_in_use hstate), if_pos h]

theorem State.writeProfile_busy (h : ¬ profileAcceptable args = false)
    (hbusy : (profileArg args).enabled = true ∧ (profileArg args).lockLimit.toNat < (s.heldLines p).length) :
    s.writeProfile p args = (s, .just .busy) := by
  rw [State.writeProfile, if_neg (State.not_in_use hstate), if_neg h, if_pos hbusy]

theorem State.writeProfile_accepted (h : ¬ profileAcceptable args = false)
    (hroom : (profileArg args).enabled = false ∨ (s.heldLines p).length ≤ (profileArg args).lockLimit.toNat) :
    s.writeProfile p args = (s.acceptProfile p (profileArg args), .just .ok) := by
  have hfree : ¬ ((profileArg args).enabled = true ∧ (profileArg args).lockLimit.toNat < (s.heldLines p).length) := by
    rintro ⟨henabled, hlt⟩
    obtain hoff | hle := hroom
    · simp [hoff] at henabled
    · omega
  rw [State.writeProfile, if_neg (State.not_in_use hstate), if_neg h, if_neg hfree]

end

section

variable {s : State} {p : Port} {f : Profile}

theorem State.acceptProfile_kept (h : ¬ ((s.port p).state = .paused ∧ f.enabled = false)) {st : PortState}
    (hst : stateAfterProfile (s.port p).state f.enabled (s.prst p) = st) :
    s.acceptProfile p f = s.modPort p (fun x => { x with profile := f, state := st }) := by
  rw [State.acceptProfile, if_neg h]
  exact State.modPort_congr _ _ _ _ (by rw [hst])

theorem State.acceptProfile_same (h : ¬ ((s.port p).state = .paused ∧ f.enabled = false))
    (hst : stateAfterProfile (s.port p).state f.enabled (s.prst p) = (s.port p).state) :
    s.acceptProfile p f = s.modPort p (fun x => { x with profile := f }) := by
  rw [State.acceptProfile, if_neg h]
  exact State.modPort_congr _ _ _ _ (by rw [hst])

theorem State.acceptProfile_dropped (hs : (s.port p).state = .paused) (he : f.enabled = false) :
    s.acceptProfile p f = (s.modPort p (fun x => { x with profile := f })).drop p := by
  have hsame : (s.modPort p (fun x => { x with profile := f, state := stateAfterProfile x.state f.enabled (s.prst p) })) =
      s.modPort p (fun x => { x with profile := f }) :=
    State.modPort_congr _ _ _ _ (by simp [hs, stateAfterProfile])
  rw [State.acceptProfile, if_pos ⟨hs, he⟩, hsame]

end

/-- Settles O46: R20's order, and the port's state by R27. -/
theorem writeProfileIsJudgedInOrder : Obligations.WriteProfileIsJudgedInOrder := by
  intro s p b1 b2 b3 b4 b5 hlink
  let args : List Byte := [b1, b2, b3, b4, b5]
  have hexec : exec (.writeProfile b5) s = .next ((s.withPort b1 (fun p => s.writeProfile p args)).1.enterReply
      (s.withPort b1 (fun p => s.writeProfile p args)).2) :=
    congrArg Host.Outcome.next (State.atLastArgument_of_link b5 _ hlink rfl)
  rw [hexec]
  refine ⟨fun hb => ?_, fun hb => ?_⟩
  · rw [State.withPort_of_ge s _ hb]
    rfl
  rw [State.withPort_of_toNat_eq s _ hb]
  intro f bad
  have hf : profileArg args = f := rfl
  have hbad : profileAcceptable args = false ↔ bad := profileAcceptable_eq_false_iff
  refine ⟨fun h => ?_, fun hstate => ⟨fun h => ?_, fun h hbusy => ?_, fun h hroom => ?accepted⟩⟩
  · rw [State.writeProfile_in_use h]
    rfl
  · rw [State.writeProfile_bad hstate (hbad.mpr h)]
    rfl
  · rw [State.writeProfile_busy hstate (mt hbad.mp h) hbusy]
    rfl
  case accepted =>
    rw [State.writeProfile_accepted hstate (mt hbad.mp h) hroom, hf]
    refine ⟨fun hs he => ?_, fun hs he => ?_, fun hs hon => ?_, fun hs hoff => ?_⟩
    · rw [State.acceptProfile_same (by simp [he]) (by rw [hs]; rfl)]
      rfl
    · rw [State.acceptProfile_dropped hs he]
      rfl
    · rw [State.acceptProfile_kept (st := .paused) (by simp [hs]) (by simp [hs, stateAfterProfile, hon])]
      rfl
    · have hstays : stateAfterProfile (s.port p).state f.enabled (s.prst p) = (s.port p).state := by
        obtain he | hprst := hoff
        · simp [hs, stateAfterProfile, he]
        · simp [hs, stateAfterProfile, hprst]
      rw [State.acceptProfile_same (by simp [hs]) hstays]
      rfl

/-! ### The read commands (R181..R185) -/

theorem faultBytes_length (f : FaultRecord) : (faultBytes f).length = 8 := by cases f <;> rfl

theorem heldBytes_length (h : Option HeldLine) : (heldBytes h).length = 5 := by cases h <;> rfl

theorem State.portBytes_length (s : State) (p : Port) : (s.portBytes p).length = 27 := by
  simp [State.portBytes, bytes2, faultBytes_length, heldBytes_length]

theorem State.lockBytes_length (s : State) (e : EntryIx) : (s.lockBytes e).length = 12 := by
  unfold State.lockBytes
  split
  · rfl
  · simp [bytes4, bytes2]

/-- Settles O42: the reply is built whole, and the state is otherwise as it was. -/
theorem readCommandsReplyAndChangeNothing : Obligations.ReadCommandsReplyAndChangeNothing := by
  intro s b
  refine ⟨fun hlink => ?command, fun hlink => ?port, fun hlink => ?region, fun hlink => ?lock⟩
  case command =>
    exact ⟨congrArg Host.Outcome.next (State.atCommandByte_of_link _ hlink), rfl,
      congrArg Host.Outcome.next (State.atCommandByte_of_link _ hlink), rfl⟩
  case port =>
    have hexec : exec (.readPort b) s = .next ((s.withPort b (fun p => (s, .report (s.portBytes p)))).1.enterReply
        (s.withPort b (fun p => (s, .report (s.portBytes p)))).2) :=
      congrArg Host.Outcome.next (State.atLastArgument_of_link b _ hlink rfl)
    rw [hexec]
    refine ⟨fun p hb => ⟨?_, s.portBytes_length p⟩, fun hb => ?_⟩
    · rw [State.withPort_of_toNat_eq s _ hb]
      rfl
    · rw [State.withPort_of_ge s _ hb]
      rfl
  case region =>
    have hexec : exec (.readRegion b) s = .next ((s.withRegion b (fun g => (s, .report s.regions[g].bytes))).1.enterReply
        (s.withRegion b (fun g => (s, .report s.regions[g].bytes))).2) :=
      congrArg Host.Outcome.next (State.atLastArgument_of_link b _ hlink rfl)
    rw [hexec]
    refine ⟨fun g hb => ⟨?_, rfl⟩, fun hb => ?_⟩
    · rw [State.withRegion_of_toNat_eq s _ hb]
      rfl
    · rw [State.withRegion_of_ge s _ hb]
      rfl
  case lock =>
    have hexec : exec (.readLock b) s = .next ((s.withEntry b (fun e => (s, .report (s.lockBytes e)))).1.enterReply
        (s.withEntry b (fun e => (s, .report (s.lockBytes e)))).2) :=
      congrArg Host.Outcome.next (State.atLastArgument_of_link b _ hlink rfl)
    rw [hexec]
    refine ⟨fun e hb => ⟨?_, s.lockBytes_length e⟩, fun hb => ?_⟩
    · rw [State.withEntry_of_toNat_eq s _ hb]
      rfl
    · rw [State.withEntry_of_ge s _ hb]
      rfl

end Sys2Proof.Machine

/-! PROOF. The frames of the maintenance link (O41): the phases, the bits of a byte, and the byte they make. -/

namespace Sys2Proof.Machine

/-! ### Command bytes (R195) -/

/-- A byte is unknown exactly where it is none of the thirteen codes (R175). -/
theorem MaintCommand.ofByte_eq_none_iff {b : Byte} : MaintCommand.ofByte b = none ↔ b ∉ MaintCommand.all.map MaintCommand.code := by
  simp only [MaintCommand.ofByte, List.find?_eq_none, beq_iff_eq, List.mem_map, not_exists, not_and]

/-! ### The byte that eight bits make (R174) -/

theorem getLsbD_flag (b : Bool) (k n : Nat) : (flag b k).getLsbD n = (decide (n < 8) && decide (n = k) && b) := by
  cases b with
  | false => simp [flag]
  | true =>
    simp only [flag, field, if_true, BitVec.getLsbD_shiftLeft, BitVec.getLsbD_ofNat, Bool.and_true]
    by_cases hn : n < 8
    · by_cases hk : n = k
      · subst hk; simp [hn]
      · by_cases hlt : n < k
        · simp [hlt, hk]
        · have hpos : n - k ≠ 0 := by omega
          have hbit : (1 : Nat).testBit (n - k) = false := by
            rw [← Bool.not_eq_true, Nat.testBit_one_eq_true_iff_self_eq_zero]
            exact hpos
          simp [hk, hbit]
    · simp [hn]

/-- A bit clocked in moves the others up (R174). -/
theorem getLsbD_clockedIn (b : Byte) (x : Bool) (n : Nat) (hn : n < 8) :
    (b <<< 1 ||| flag x 0).getLsbD n = if n = 0 then x else b.getLsbD (n - 1) := by
  rw [BitVec.getLsbD_or, BitVec.getLsbD_shiftLeft, getLsbD_flag]
  cases n with
  | zero => simp
  | succ n => simp [hn]

/-- Of the bits clocked, the last is the lowest. -/
theorem getLsbD_byteOfBits (l : List Bool) (n : Nat) (hn : n < 8) : (byteOfBits l).getLsbD n = l.reverse[n]?.getD false := by
  induction l using List.reverseRecOn generalizing n with
  | nil => simp [byteOfBits]
  | append_singleton l x ih =>
    have hstep : byteOfBits (l ++ [x]) = byteOfBits l <<< 1 ||| flag x 0 := by
      rw [byteOfBits, List.foldl_append]
      rfl
    rw [hstep, getLsbD_clockedIn _ _ _ hn, List.reverse_append]
    cases n with
    | zero => rfl
    | succ n => simpa using ih n (by omega)

theorem getMsbD_byteOfBits {l : List Bool} (hl : l.length = 8) (n : Nat) (hn : n < 8) :
    l[n]? = some ((byteOfBits l).getMsbD n) := by
  have hlast : 8 - 1 - n < 8 := by omega
  have hlow : (byteOfBits l).getMsbD n = (byteOfBits l).getLsbD (8 - 1 - n) := by simp [BitVec.getMsbD, hn]
  have hback : l.reverse[8 - 1 - n]? = l[n]? := by
    rw [List.getElem?_reverse (by omega), hl]
    congr 1
    omega
  rw [hlow, getLsbD_byteOfBits l _ hlast, hback, List.getElem?_eq_getElem (by omega)]
  rfl

theorem byteOfBits_eq {l : List Bool} {b : Byte} (hl : l.length = 8) (h : ∀ n < 8, l[n]? = some (b.getMsbD n)) :
    byteOfBits l = b := by
  refine BitVec.eq_of_getMsbD_eq fun n hn => ?_
  exact Option.some.inj ((getMsbD_byteOfBits hl n hn).symm.trans (h n hn))

/-! ### A cycle of MCLK in a quantum (log 8) -/

section

variable {s : State} {bit : Bool} {later : List (Option Bool)}

/-- With an edge in it, a quantum clocks its bit. -/
theorem State.tick_of_edge (h : s.wire = some bit :: later) :
    s.tick.shift = (if s.link.counts then s.shift ++ [bit] else s.shift) ∧
    s.tick.pending = (if s.link.counts ∧ 8 ≤ s.shift.length + 1 then s.pending ++ [s.link.row (byteOfBits (s.shift ++ [bit]))]
      else s.pending) := by
  have hcount := Counted.countQuantum s
  rw [← hcount.wire] at h
  rw [← hcount.shift, ← hcount.pending, ← hcount.link, State.tick_eq]
  generalize s.countQuantum = u at h
  have hclocked : u.clockLink = ({ u with wire := later } : State).clockBit bit := by rw [State.clockLink, h]
  rw [hclocked, clockBit_eq]
  exact ⟨rfl, rfl⟩

end

/-! ### What ends or moves a frame -/

section

variable {s : State} {b : Byte}

theorem exec_byteReceived (s : State) (b : Byte) : exec (.byteReceived b) s =
    .next ((s.link.received b).elim s s.setLink) := by
  simp only [exec, execByteReceived]
  cases s.link.received b <;> rfl

theorem exec_byteReceived_of_some {f : Frame} (h : s.link.received b = some f) : exec (.byteReceived b) s = .next (s.setLink f) := by
  rw [exec_byteReceived, h]
  rfl

theorem exec_byteReceived_of_none (h : s.link.received b = none) : exec (.byteReceived b) s = .next s := by
  rw [exec_byteReceived, h]
  rfl

theorem Frame.received_command {c : MaintCommand} (hc : MaintCommand.ofByte b = some c) (hn : c.argCount ≠ 0) :
    Frame.command.received b = some (.arguments c []) := by
  simp only [Frame.received, hc, hn, if_false]

theorem Frame.received_arguments {c : MaintCommand} {got : List Byte} (h : got.length + 1 < c.argCount) :
    (Frame.arguments c got).received b = some (.arguments c (got ++ [b])) := if_pos h

theorem Frame.received_reply (bytes : List Byte) (sent : Nat) (b : Byte) : (Frame.reply bytes sent).received b =
    some (if sent + 1 < bytes.length then .reply bytes (sent + 1) else .trailing) := rfl

end

/-- The bits that the link sends and takes in one quantum with an edge in it. -/
theorem State.frame_tick (s : State) (b : Byte) {bit : Bool} {later : List (Option Bool)} (h : s.wire = some bit :: later) :
    (s.link = .idle ∨ s.link = .deselectWait ∨ s.link = .trailing → s.tick.shift = s.shift ∧ s.tick.pending = s.pending) ∧
    (s.link = .command ∨ (∃ c got, s.link = .arguments c got) ∨ (∃ bytes sent, s.link = .reply bytes sent) →
      s.tick.shift = s.shift ++ [bit] ∧ (s.shift.length < 7 → s.tick.pending = s.pending) ∧
      (s.shift.length = 7 → (∀ n < 8, (s.shift ++ [bit])[n]? = some (b.getMsbD n)) →
        s.tick.pending = s.pending ++ [s.link.row b])) := by
  obtain ⟨hshift, hpending⟩ := State.tick_of_edge h
  rw [hshift, hpending]
  constructor
  · intro hlink
    have hcounts : s.link.counts = false := by obtain hl | hl | hl := hlink <;> rw [hl] <;> rfl
    simp [hcounts]
  · intro hlink
    have hcounts : s.link.counts = true := by
      obtain hl | ⟨c, got, hl⟩ | ⟨bytes, sent, hl⟩ := hlink <;> rw [hl] <;> rfl
    refine ⟨by simp [hcounts], fun hlen => if_neg (by omega), fun hlen hbits => ?_⟩
    have hbyte : byteOfBits (s.shift ++ [bit]) = b := byteOfBits_eq (by simp [hlen]) hbits
    rw [if_pos ⟨hcounts, by omega⟩, hbyte]

/-- Settles O41. -/
theorem framesBeginMoveAndEnd : Obligations.FramesBeginMoveAndEnd := by
  intro s b
  refine ⟨fun hmcs hlink => ?falls, fun hmcs => ?rises, fun hlink hb => ?unknown, fun c hlink hc hn => ?command,
    fun c got hlink hgot => ?arguments, fun bytes sent hlink => ?reply, fun hlink => ?trailing, fun _ => rfl, fun hlink => ?silent,
    fun hlink => ?undriven, fun y hy hlen => ?bit, fun bit later hwire => ⟨?wire, s.link_tick, s.frame_tick b hwire⟩, ?rows⟩
  case falls =>
    simp only [exec, execMcsNFalling, hmcs, Bool.false_eq_true, if_false, hlink, Frame.begun, State.setMcs]
  case rises =>
    simp only [exec, execMcsNRising, hmcs, if_true, State.setMcs]
  case unknown =>
    have hnone : MaintCommand.ofByte b = none := MaintCommand.ofByte_eq_none_iff.mpr hb
    simp only [exec, execBadCommand, hlink, hnone, and_self, if_true]
    rfl
  case command => exact exec_byteReceived_of_some (by rw [hlink]; exact Frame.received_command hc hn)
  case arguments => exact exec_byteReceived_of_some (by rw [hlink]; exact Frame.received_arguments hgot)
  case reply =>
    refine ⟨by rw [hlink]; rfl, fun hmore => ?_, fun hlast => ?_⟩
    · exact exec_byteReceived_of_some (by rw [hlink, Frame.received_reply, if_pos hmore])
    · exact exec_byteReceived_of_some (by rw [hlink, Frame.received_reply, if_neg (by omega)])
  case trailing =>
    obtain hl | hl := hlink
    all_goals exact ⟨by rw [hl]; rfl, exec_byteReceived_of_none (by rw [hl]; rfl)⟩
  case silent => obtain hl | ⟨c, got, hl⟩ := hlink <;> rw [hl] <;> rfl
  case undriven => rw [State.mdo, hlink]; rfl
  case bit => rw [State.mdo, hy, Option.map_some, Nat.min_eq_left (by omega)]
  case wire => rw [s.wire_tick, hwire, List.tail_cons]
  case rows =>
    refine ⟨fun hnone => ?_, fun c hc => ?_, fun _ _ => rfl, fun _ _ => rfl⟩
    · simp only [Frame.row, hnone]
    · simp only [Frame.row, hc]

end Sys2Proof.Machine

/-! PROOF. READ-STATUS (O43): a rule for the bits of a number and of a flag placed in a byte, and then the seven bytes. -/

namespace Sys2Proof.Machine

/-! ### Numbers and flags in a byte -/

/-- Bit `i` of a byte with a number placed at bit `k`. -/
theorem getLsbD_field (n k i : Nat) : (field n k).getLsbD i = (decide (i < 8) && decide (k ≤ i) && n.testBit (i - k)) := by
  rw [field, BitVec.getLsbD_shiftLeft, BitVec.getLsbD_ofNat]
  by_cases hi : i < 8
  · by_cases hk : k ≤ i
    · simp [hi, hk, show i - k < 8 by omega, Nat.not_lt.mpr hk]
    · simp [hi, hk, Nat.lt_of_not_le hk]
  · simp [hi]

theorem testBit_of_lt {n w : Nat} (h : n < 2 ^ w) (i : Nat) (hi : w ≤ i) : n.testBit i = false :=
  Nat.testBit_lt_two_pow (h.trans_le (Nat.pow_le_pow_right (by decide) hi))

/-- A field of a byte holds a number where it holds the number's bits. -/
theorem toNat_extract {b : Byte} {k len n : Nat} (hn : n < 2 ^ len) (h : ∀ i < len, b.getLsbD (k + i) = n.testBit i) :
    (b.extractLsb' k len).toNat = n := by
  have hextract : b.extractLsb' k len = BitVec.ofNat len n := by
    refine BitVec.eq_of_getLsbD_eq fun i hi => ?_
    simp only [BitVec.getLsbD_extractLsb', BitVec.getLsbD_ofNat, hi, decide_true, Bool.true_and, h i hi]
  rw [hextract, BitVec.toNat_ofNat, Nat.mod_eq_of_lt hn]

theorem field_toNat {n : Nat} (hn : n < 256) : (field n 0).toNat = n := by
  simp [field, Nat.mod_eq_of_lt hn]

theorem field_zero (k : Nat) : field 0 k = 0 := by simp [field]

/-- A list's members as numbers, beyond its length zero (R197). -/
theorem place_field {α : Type} (g : α → Nat) (k : Nat) (l : List α) (i : Nat) :
    place (fun x => field (g x) k) l i = field ((l[i]?.map g).getD 0) k := by
  cases h : l[i]? with
  | none => simp [place, h, field_zero]
  | some x => simp [place, h]

/-- Four numbers of two bits each. -/
theorem toNat_extract_quarters (f : Port → Nat) (hf : ∀ p, f p < 4) (p : Port) :
    ((field (f 0) 0 ||| field (f 1) 2 ||| field (f 2) 4 ||| field (f 3) 6).extractLsb' (2 * p.val) 2).toNat = f p := by
  have hbits : ∀ q i, 2 ≤ i → (f q).testBit i = false := fun q => testBit_of_lt (w := 2) (hf q)
  refine toNat_extract (hf p) fun i hi => ?_
  simp only [BitVec.getLsbD_or, getLsbD_field]
  fin_cases p <;> interval_cases i <;> simp [hbits]

/-- Bit by bit, the flags of the four ports. -/
theorem getLsbD_portFlags_self (f : Port → Bool) {k : Nat} (hk : k ≤ 4) (p : Port) : (portFlags f k).getLsbD (k + p.val) = f p := by
  simp only [portFlags, BitVec.getLsbD_or, getLsbD_flag]
  fin_cases p <;> simp <;> omega

theorem getLsbD_portFlags_of_lt (f : Port → Bool) {k i : Nat} (hi : i < k ∨ k + 4 ≤ i) : (portFlags f k).getLsbD i = false := by
  simp only [portFlags, BitVec.getLsbD_or, getLsbD_flag]
  have hne : ∀ j < 4, i ≠ k + j := fun j hj => by omega
  simp [hne 1 (by decide), hne 2 (by decide), hne 3 (by decide), show i ≠ k by omega]

/-! ### State codes (R195) -/

theorem PortState.code_lt (st : PortState) : st.code < 4 := by cases st <;> decide

theorem MemState.code_lt (st : MemState) : st.code < 4 := by cases st <;> simp [MemState.code]

/-! ### The seven bytes (R181, R197) -/

section

variable (s : State)

/-- READ-STATUS byte 2: occupied records, the memory port's state, ALERT_N and quiet. -/
def State.statusFlags : Byte :=
  portFlags (fun p => (s.port p).fault.occupied) 0 ||| field s.mem.state.code 4 ||| flag s.alert 6 ||| flag s.quiet 7

theorem State.statusFlags_occupied (p : Port) : s.statusFlags.getLsbD p.val = (s.port p).fault.occupied := by
  have hports := getLsbD_portFlags_self (fun p => (s.port p).fault.occupied) (k := 0) (by decide) p
  rw [Nat.zero_add] at hports
  rw [State.statusFlags, BitVec.getLsbD_or, BitVec.getLsbD_or, BitVec.getLsbD_or, hports]
  simp [getLsbD_field, getLsbD_flag, show ¬ 4 ≤ p.val by omega, show p.val ≠ 6 by omega, show p.val ≠ 7 by omega]

/-- The bits of byte 2 above the port flags. -/
theorem State.statusFlags_high {i : Nat} (hi : 4 ≤ i) : s.statusFlags.getLsbD i =
    (decide (i < 8) && s.mem.state.code.testBit (i - 4) || decide (i = 6) && s.alert || decide (i = 7) && s.quiet) := by
  have hports := getLsbD_portFlags_of_lt (fun p => (s.port p).fault.occupied) (k := 0) (i := i) (.inr (by omega))
  rw [State.statusFlags, BitVec.getLsbD_or, BitVec.getLsbD_or, BitVec.getLsbD_or, hports, getLsbD_field, getLsbD_flag, getLsbD_flag]
  by_cases h6 : i = 6
  · subst h6; simp
  · by_cases h7 : i = 7
    · subst h7; simp
    · simp [h6, h7, hi]

theorem State.statusFlags_memState : (s.statusFlags.extractLsb' 4 2).toNat = s.mem.state.code := by
  refine toNat_extract s.mem.state.code_lt fun i hi => ?_
  rw [s.statusFlags_high (by omega)]
  simp [show 4 + i < 8 by omega, show 4 + i ≠ 6 by omega, show 4 + i ≠ 7 by omega]

theorem State.statusFlags_alert : s.statusFlags.getLsbD 6 = s.alert := by
  rw [s.statusFlags_high (by decide), testBit_of_lt (w := 2) s.mem.state.code_lt _ (by decide)]
  simp

theorem State.statusFlags_quiet : s.statusFlags.getLsbD 7 = s.quiet := by
  rw [s.statusFlags_high (by decide), testBit_of_lt (w := 2) s.mem.state.code_lt _ (by decide)]
  simp

/-- Two numbers of three bits, in the halves of a byte. -/
theorem toNat_extract_halves {n m : Nat} (hn : n < 8) (hm : m < 8) :
    ((field n 0 ||| field m 4).extractLsb' 0 3).toNat = n ∧ ((field n 0 ||| field m 4).extractLsb' 4 3).toNat = m := by
  have hnbits := testBit_of_lt (w := 3) hn
  constructor
  · refine toNat_extract hn fun i hi => ?_
    simp only [BitVec.getLsbD_or, getLsbD_field]
    interval_cases i <;> simp
  · refine toNat_extract hm fun i hi => ?_
    simp only [BitVec.getLsbD_or, getLsbD_field]
    interval_cases i <;> simp [hnbits]

/-- A number of three bits below four port flags. -/
theorem toNat_extract_below_portFlags {n : Nat} (hn : n < 8) (f : Port → Bool) :
    ((field n 0 ||| portFlags f 4).extractLsb' 0 3).toNat = n := by
  refine toNat_extract hn fun i hi => ?_
  rw [BitVec.getLsbD_or, getLsbD_portFlags_of_lt f (.inl (by omega)), getLsbD_field]
  simp [show i < 8 by omega]

theorem getLsbD_portFlags_above {n : Nat} (hn : n < 8) (f : Port → Bool) (p : Port) :
    (field n 0 ||| portFlags f 4).getLsbD (4 + p.val) = f p := by
  rw [BitVec.getLsbD_or, getLsbD_portFlags_self f (by decide), getLsbD_field, testBit_of_lt (w := 3) hn _ (by omega)]
  simp

theorem State.statusEntryWait_eq : s.statusEntryWait =
    field ((s.table.entryWait[0]?.map Fin.val).getD 0) 0 ||| field ((s.table.entryWait[1]?.map Fin.val).getD 0) 2 |||
      field ((s.table.entryWait[2]?.map Fin.val).getD 0) 4 ||| field ((s.table.entryWait[3]?.map Fin.val).getD 0) 6 := by
  simp only [State.statusEntryWait, place_field]

theorem portNumber_lt (l : List Port) (i : Nat) : (l[i]?.map Fin.val).getD 0 < 4 := by
  cases l[i]? with
  | none => decide
  | some p => exact p.isLt

theorem State.statusEntryWait_member {i : Nat} (hi : i < 4) :
    (s.statusEntryWait.extractLsb' (2 * i) 2).toNat = (s.table.entryWait[i]?.map Fin.val).getD 0 := by
  rw [State.statusEntryWait_eq]
  exact toNat_extract_quarters (fun p => (s.table.entryWait[p.val]?.map Fin.val).getD 0) (fun p => portNumber_lt _ p.val) ⟨i, hi⟩

theorem State.statusEntries_bit (e : EntryIx) : s.statusEntries.getLsbD e.val = (s.entry e).isSome := by
  simp only [State.statusEntries, allEntries, List.foldl_cons, List.foldl_nil, BitVec.getLsbD_or, getLsbD_flag]
  fin_cases e <;> simp

theorem State.alert_iff : s.alert = true ↔ (∃ p, (s.port p).fault ≠ .empty) ∨ ∃ c, s.mem.state = .down c := by
  simp only [State.alert, Bool.or_eq_true, List.any_eq_true, mem_allPorts, true_and, FaultRecord.occupied_iff,
    State.memDown_eq_true_iff]

theorem State.quiet_iff : s.quiet = true ↔ (∀ p, (s.port p).state ≠ .active) ∧ s.mem.outstanding = [] ∧ s.table.handover = [] ∧
    s.ops.writeBack = [] ∧ ∀ p, s.record p = none := by
  simp [State.quiet, mem_allPorts, and_assoc]

end

/-- Settles O43. -/
theorem statusShowsAlertAndQuiet : Obligations.StatusShowsAlertAndQuiet := by
  intro s
  refine ⟨⟨fun p => ⟨?ports, ?occupied⟩, s.statusFlags_memState, fun hout hover => ?lengths,
    fun hwrite => ⟨?writeBack, fun p => ?records⟩, fun hwait => ?waiting, fun i hi => s.statusEntryWait_member hi,
    s.statusEntries_bit⟩, s.statusFlags_alert, s.statusFlags_quiet,
    s.alert_iff, s.quiet_iff⟩
  case ports => exact toNat_extract_quarters (fun p => (s.port p).state.code) (fun p => (s.port p).state.code_lt) p
  case occupied => exact (Eq.congr_left (s.statusFlags_occupied p)).trans (FaultRecord.occupied_iff _)
  case lengths => exact toNat_extract_halves (by omega) (by omega)
  case writeBack => exact toNat_extract_below_portFlags (by omega) _
  case records => exact getLsbD_portFlags_above (by omega) _ p
  case waiting => exact field_toNat (by omega)

end Sys2Proof.Machine

/-! PROOF. READ-PORT and READ-REGION (O44): where each of their bytes puts what it reports. -/

namespace Sys2Proof.Machine

/-! ### Words in bytes, most significant first (R197) -/

theorem bytes2_append (x : BitVec 16) : x.extractLsb' 8 8 ++ x.extractLsb' 0 8 = x := by
  rw [BitVec.extractLsb'_append_extractLsb'_eq_extractLsb' (by rfl)]
  exact BitVec.extractLsb'_eq_self

theorem bytes3_append (x : Block) : x.extractLsb' 16 8 ++ x.extractLsb' 8 8 ++ x.extractLsb' 0 8 = x := by
  rw [BitVec.extractLsb'_append_extractLsb'_eq_extractLsb' (by rfl), BitVec.extractLsb'_append_extractLsb'_eq_extractLsb' (by rfl)]
  exact BitVec.extractLsb'_eq_self

theorem bytes4_append (x : Word) :
    x.extractLsb' 24 8 ++ x.extractLsb' 16 8 ++ x.extractLsb' 8 8 ++ x.extractLsb' 0 8 = x := by
  rw [BitVec.extractLsb'_append_extractLsb'_eq_extractLsb' (by rfl), BitVec.extractLsb'_append_extractLsb'_eq_extractLsb' (by rfl),
    BitVec.extractLsb'_append_extractLsb'_eq_extractLsb' (by rfl)]
  exact BitVec.extractLsb'_eq_self

/-! ### A narrow value in a byte -/

/-- A value of fewer than eight bits stands in a byte where every bit of it does. -/
theorem extract_eq {b : Byte} {k len : Nat} {x : BitVec len} (h : ∀ i < len, b.getLsbD (k + i) = x.getLsbD i) :
    b.extractLsb' k len = x := by
  refine BitVec.eq_of_getLsbD_eq fun i hi => ?_
  simp only [BitVec.getLsbD_extractLsb', hi, decide_true, Bool.true_and, h i hi]

theorem getLsbD_setWidth_of_ge {w : Nat} (x : BitVec w) {i : Nat} (hi : w ≤ i) : (x.setWidth 8).getLsbD i = false := by
  rw [BitVec.getLsbD_setWidth, BitVec.getLsbD_of_ge x i hi, Bool.and_false]

/-- Two numbers of up to four bits, in the halves of a byte. -/
theorem toNat_extract_nibbles {n m : Nat} (hn : n < 16) (hm : m < 16) :
    ((field n 4 ||| field m 0).extractLsb' 4 4).toNat = n ∧ ((field n 4 ||| field m 0).extractLsb' 0 4).toNat = m := by
  have hmbits := testBit_of_lt (w := 4) hm
  constructor
  · refine toNat_extract hn fun i hi => ?_
    simp only [BitVec.getLsbD_or, getLsbD_field]
    interval_cases i <;> simp [hmbits]
  · refine toNat_extract hm fun i hi => ?_
    simp only [BitVec.getLsbD_or, getLsbD_field]
    interval_cases i <;> simp

/-- A number of `w` bits at the bottom of a byte, with one flag at or above bit `w`. -/
theorem field_or_flag {n w : Nat} (hw : w ≤ 8) (hn : n < 2 ^ w) (x : Bool) {k : Nat} (hk : w ≤ k) (hk8 : k < 8) :
    ((field n 0 ||| flag x k).extractLsb' 0 w).toNat = n ∧ (field n 0 ||| flag x k).getLsbD k = x := by
  constructor
  · refine toNat_extract hn fun i hi => ?_
    rw [BitVec.getLsbD_or, getLsbD_field, getLsbD_flag]
    simp [show i < 8 by omega, show i ≠ k by omega]
  · rw [BitVec.getLsbD_or, getLsbD_field, getLsbD_flag, testBit_of_lt hn _ (by omega)]
    simp [hk8]

/-! ### READ-PORT, part by part (R182) -/

section

variable (s : State) (p : Port)

theorem State.portByte1_bits : ((s.portByte1 p).extractLsb' 0 2).toNat = (s.port p).state.code ∧
    (s.portByte1 p).getLsbD 2 = s.prst p ∧ (s.portByte1 p).getLsbD 3 = s.blocked p ∧
    (s.portByte1 p).getLsbD 4 = (s.record p).isSome := by
  have hcode := testBit_of_lt (w := 2) (s.port p).state.code_lt
  refine ⟨toNat_extract (s.port p).state.code_lt fun i hi => ?_, ?_, ?_, ?_⟩
  · simp only [State.portByte1, BitVec.getLsbD_or, getLsbD_field, getLsbD_flag]
    interval_cases i <;> simp
  all_goals
    simp only [State.portByte1, BitVec.getLsbD_or, getLsbD_field, getLsbD_flag]
    simp [hcode]

theorem Profile.flagsByte_bits (f : Profile) : f.flagsByte.getLsbD 7 = f.enabled ∧ f.flagsByte.getLsbD 6 = f.fusedAllowed ∧
    f.flagsByte.getLsbD 5 = f.capUser ∧ f.flagsByte.extractLsb' 0 2 = f.lockLimit := by
  have hlimit : ∀ i, 2 ≤ i → (f.lockLimit.setWidth 8).getLsbD i = false := fun i hi => getLsbD_setWidth_of_ge _ hi
  refine ⟨?_, ?_, ?_, extract_eq fun i hi => ?_⟩
  · simp only [Profile.flagsByte, BitVec.getLsbD_or, getLsbD_flag, hlimit 7 (by decide)]
    simp
  · simp only [Profile.flagsByte, BitVec.getLsbD_or, getLsbD_flag, hlimit 6 (by decide)]
    simp
  · simp only [Profile.flagsByte, BitVec.getLsbD_or, getLsbD_flag, hlimit 5 (by decide)]
    simp
  · simp only [Profile.flagsByte, BitVec.getLsbD_or, getLsbD_flag, BitVec.getLsbD_setWidth]
    simp [show i < 8 by omega, show i ≠ 7 by omega, show i ≠ 6 by omega, show i ≠ 5 by omega]

theorem RespState.code_lt (st : RespState) : st.code < 8 := by cases st <;> simp [RespState.code]

/-- Member `i` of a response list by its state code (R197). -/
def respCode (l : List RespEntry) (i : Nat) : Nat := (l[i]?.map (fun r => r.state.code)).getD 0

theorem respCode_lt (l : List RespEntry) (i : Nat) : respCode l i < 16 := by
  unfold respCode
  cases l[i]? with
  | none => decide
  | some r => exact r.state.code_lt.trans (by decide)

/-- What follows the first eight bytes of READ-PORT: the fault record, and the held lines. -/
def State.portTail : List Byte := faultBytes (s.port p).fault ++ (field (s.heldLines p).length 0 ::
  (heldBytes (s.heldLines p)[0]? ++ heldBytes (s.heldLines p)[1]?))

/-- READ-PORT with its first eight bytes apart. -/
theorem State.portBytes_eq : s.portBytes p =
    [s.portByte1 p, (s.port p).profile.flagsByte, ((s.port p).profile.holdLimit.setWidth 16).extractLsb' 8 8,
      ((s.port p).profile.holdLimit.setWidth 16).extractLsb' 0 8, field (s.port p).inbound 0 ||| flag (s.port p).held.isSome 4,
      field (s.port p).resp.length 0, field (respCode (s.port p).resp 0) 4 ||| field (respCode (s.port p).resp 1) 0,
      field (respCode (s.port p).resp 2) 4 ||| field (respCode (s.port p).resp 3) 0] ++ s.portTail p := by
  simp only [State.portBytes, State.portTail, place_field, bytes2, respCode, List.append_assoc, List.cons_append, List.nil_append]

theorem State.portBytes_fault {i : Nat} (h9 : 9 ≤ i) (h16 : i ≤ 16) :
    (s.portBytes p).getD (i - 1) 0 = (faultBytes (s.port p).fault).getD (i - 9) 0 := by
  have hi : i - 1 = 8 + (i - 9) := by omega
  rw [State.portBytes_eq, List.getD_append_right _ _ _ _ (by simp; omega), State.portTail,
    List.getD_append _ _ _ _ (by simp [faultBytes_length]; omega), hi]
  simp

/-- The bytes from 17 on: the count of held lines, and five bytes for each of two. -/
theorem State.portBytes_lines (i : Nat) : (s.portBytes p).getD (16 + i) 0 = (field (s.heldLines p).length 0 ::
    (heldBytes (s.heldLines p)[0]? ++ heldBytes (s.heldLines p)[1]?)).getD i 0 := by
  rw [State.portBytes_eq, List.getD_append_right _ _ _ _ (by simp; omega), State.portTail]
  rw [List.getD_append_right _ _ _ _ (by simp [faultBytes_length]; omega)]
  congr 1
  simp only [List.length_cons, List.length_nil, faultBytes_length]
  omega

theorem State.portBytes_line {j : Nat} (hj : j < 2) {k : Nat} (hk : k < 5) :
    (s.portBytes p).getD (17 + 5 * j + k) 0 = (heldBytes (s.heldLines p)[j]?).getD k 0 := by
  have hi : 17 + 5 * j + k = 16 + (1 + (5 * j + k)) := by omega
  rw [hi, State.portBytes_lines, Nat.add_comm 1, List.getD_cons_succ]
  interval_cases j
  · rw [List.getD_append _ _ _ _ (by simp [heldBytes_length]; omega)]
    simp
  · rw [List.getD_append_right _ _ _ _ (by simp [heldBytes_length])]
    congr 1
    simp [heldBytes_length]

end

/-! ### The fault record (R182) -/

/-- Byte 12: the tag, request kind and privilege of a decision's report. -/
def culpritByte (c : Option Culprit) : Byte :=
  match c with
  | none => 0
  | some c => c.tag.setWidth 8 ||| (c.kind.setWidth 8 <<< 4) ||| ((privCode c.priv).setWidth 8 <<< 7)

/-- Bytes 9 to 16 of a record that holds a report. -/
def reportBytes (condition : Nat) (r : Report) (second : Byte) : List Byte :=
  [field condition 0 ||| flag r.culprit.isSome 7, r.kind.code.setWidth 8, second, culpritByte r.culprit] ++ bytes4 r.addr

theorem faultBytes_first (r : Report) : faultBytes (.first r) = reportBytes 1 r 0 := by
  cases h : r.culprit <;> simp [faultBytes, reportBytes, culpritByte, FaultRecord.code, h]

theorem faultBytes_two (r : Report) (k : FaultKind) : faultBytes (.two r k) = reportBytes 2 r (k.code.setWidth 8) := by
  cases h : r.culprit <;> simp [faultBytes, reportBytes, culpritByte, FaultRecord.code, h]

theorem culpritByte_bits (c : Culprit) : (culpritByte (some c)).extractLsb' 0 4 = c.tag ∧
    (culpritByte (some c)).extractLsb' 4 3 = c.kind ∧ ((culpritByte (some c)).getLsbD 7 = true ↔ c.priv = .user) := by
  obtain ⟨tag, kind, priv⟩ := c
  have hbit : ∀ i, (culpritByte (some ⟨tag, kind, priv⟩)).getLsbD i = (((tag.setWidth 8).getLsbD i || (decide (i < 8) &&
      !decide (i < 4) && (kind.setWidth 8).getLsbD (i - 4))) || (decide (i < 8) && !decide (i < 7) &&
        ((privCode priv).setWidth 8).getLsbD (i - 7))) := fun i => by
    simp only [culpritByte, BitVec.getLsbD_or, BitVec.getLsbD_shiftLeft]
  refine ⟨extract_eq fun i hi => ?_, extract_eq fun i hi => ?_, ?_⟩
  · rw [hbit, BitVec.getLsbD_setWidth]
    simp [show i < 8 by omega, show i < 4 by omega, show i < 7 by omega]
  · rw [hbit, getLsbD_setWidth_of_ge tag (by omega), BitVec.getLsbD_setWidth]
    simp [show 4 + i < 8 by omega, show 4 + i < 7 by omega, show i < 8 by omega]
  · rw [hbit, getLsbD_setWidth_of_ge tag (by decide), getLsbD_setWidth_of_ge kind (by decide)]
    cases priv <;> simp [privCode]

theorem toNat_setWidth_eight {w : Nat} (x : BitVec w) (hw : w ≤ 8) : (x.setWidth 8).toNat = x.toNat := by
  rw [BitVec.toNat_setWidth, Nat.mod_eq_of_lt (x.isLt.trans_le (Nat.pow_le_pow_right (by decide) hw))]

/-! ### The held lines (R182) -/

theorem HeldState.code_lt (st : HeldState) : st.code < 8 := by cases st <;> simp [HeldState.code]

theorem HeldState.causeBit_iff {st : HeldState} : st.causeBit = true ↔ st = .broken .maintenance := by
  cases st with
  | broken cause => cases cause <;> simp [HeldState.causeBit]
  | _ => simp [HeldState.causeBit]

/-! ### The region's flags (R183) -/

theorem Region.flagsByte_bits (r : Region) : r.flagsByte.getLsbD 7 = r.valid ∧ r.flagsByte.getLsbD 5 = r.sr ∧
    r.flagsByte.getLsbD 4 = r.sw ∧ r.flagsByte.getLsbD 3 = r.ur ∧ r.flagsByte.getLsbD 2 = r.uw ∧ r.flagsByte.getLsbD 1 = r.lock ∧
    r.flagsByte.getLsbD 0 = r.readthru := by
  simp only [Region.flagsByte, BitVec.getLsbD_or, getLsbD_flag]
  simp

theorem extract_setWidth {w : Nat} (x : BitVec w) (hw : w ≤ 8) : (x.setWidth 8).extractLsb' 0 w = x := by
  refine extract_eq fun i hi => ?_
  rw [BitVec.getLsbD_setWidth]
  simp [show i < 8 by omega]

/-! ### The statement -/

/-- READ-PORT's fault record, byte by byte. -/
theorem reportBytes_bits (condition : Nat) (hcondition : condition < 4) (r : Report) (second : Byte) (b : Nat → Byte)
    (hb : ∀ i, 9 ≤ i → i ≤ 16 → b i = (reportBytes condition r second).getD (i - 9) 0) :
    ((b 9).extractLsb' 0 2).toNat = condition ∧ (b 9).getLsbD 7 = r.culprit.isSome ∧ (b 10).toNat = r.kind.code.toNat ∧
      (b 11).toNat = second.toNat ∧ b 13 ++ b 14 ++ b 15 ++ b 16 = r.addr ∧ ∀ c, r.culprit = some c →
        (b 12).extractLsb' 0 4 = c.tag ∧ (b 12).extractLsb' 4 3 = c.kind ∧ ((b 12).getLsbD 7 = true ↔ c.priv = .user) := by
  obtain ⟨hcode, hmarker⟩ := field_or_flag (w := 2) (by decide) hcondition r.culprit.isSome (k := 7) (by decide) (by decide)
  rw [hb 9 (by decide) (by decide), hb 10 (by decide) (by decide), hb 11 (by decide) (by decide), hb 12 (by decide) (by decide),
    hb 13 (by decide) (by decide), hb 14 (by decide) (by decide), hb 15 (by decide) (by decide), hb 16 (by decide) (by decide)]
  refine ⟨hcode, hmarker, toNat_setWidth_eight r.kind.code (by decide), rfl, bytes4_append r.addr, fun c hc => ?_⟩
  have hbyte : (reportBytes condition r second).getD (12 - 9) 0 = culpritByte (some c) := by
    rw [← hc]
    rfl
  rw [hbyte]
  exact culpritByte_bits c

/-- Settles O44. -/
theorem portAndRegionAreReported : Obligations.PortAndRegionAreReported := by
  intro s
  refine ⟨fun p hinbound hresp hlines => ?port, fun g => ?region⟩
  case region =>
    exact ⟨s.regions[g].flagsByte_bits, extract_setWidth _ (by decide), bytes3_append _, bytes3_append _⟩
  intro b f reported
  refine ⟨?state, ?profile, ?lists, ?fault, ?count, ?lines⟩
  case state => exact s.portByte1_bits p
  case profile =>
    obtain ⟨henabled, hfused, hcap, hlimit⟩ := f.flagsByte_bits
    exact ⟨henabled, hfused, hcap, hlimit, bytes2_append (f.holdLimit.setWidth 16)⟩
  case lists =>
    have hinbound' : (s.port p).inbound < 2 ^ 4 := by omega
    obtain ⟨hcount, hheld⟩ := field_or_flag (w := 4) (by decide) hinbound' (s.port p).held.isSome (k := 4) (by decide) (by decide)
    obtain ⟨h0, h1⟩ := toNat_extract_nibbles (respCode_lt (s.port p).resp 0) (respCode_lt (s.port p).resp 1)
    obtain ⟨h2, h3⟩ := toNat_extract_nibbles (respCode_lt (s.port p).resp 2) (respCode_lt (s.port p).resp 3)
    have hbytes : b 7 = field (respCode (s.port p).resp 0) 4 ||| field (respCode (s.port p).resp 1) 0 ∧
        b 8 = field (respCode (s.port p).resp 2) 4 ||| field (respCode (s.port p).resp 3) 0 := by
      simp only [b, State.portBytes_eq]
      exact ⟨rfl, rfl⟩
    refine ⟨hcount, hheld, field_toNat (by omega), fun i hi => ?_⟩
    obtain ⟨hb7, hb8⟩ := hbytes
    interval_cases i
    · exact hb7 ▸ h0
    · exact hb7 ▸ h1
    · exact hb8 ▸ h2
    · exact hb8 ▸ h3
  case fault =>
    have hb : ∀ i, 9 ≤ i → i ≤ 16 → b i = (faultBytes (s.port p).fault).getD (i - 9) 0 := fun i h9 h16 => s.portBytes_fault p h9 h16
    cases hf : (s.port p).fault with
    | empty =>
      intro i h9 h16
      rw [hb i h9 h16, hf]
      interval_cases i <;> rfl
    | first r =>
      rw [hf, faultBytes_first] at hb
      exact reportBytes_bits 1 (by decide) r 0 b hb
    | two r k =>
      rw [hf, faultBytes_two] at hb
      have hreported := reportBytes_bits 2 (by decide) r _ b hb
      rw [toNat_setWidth_eight _ (by decide)] at hreported
      exact hreported
  case count =>
    have hbyte : b 17 = field (s.heldLines p).length 0 := s.portBytes_lines p 0
    rw [hbyte]
    exact field_toNat (by omega)
  case lines =>
    intro i hi h hline
    have hb : ∀ k < 5, b (18 + 5 * i + k) = (heldBytes (some h)).getD k 0 := fun k hk => by
      rw [← hline, ← s.portBytes_line p hi hk]
      simp only [b]
      congr 1
      omega
    have hbyte := hb 0 (by decide)
    obtain ⟨hcode, hcause⟩ := field_or_flag (w := 3) (by decide) h.state.code_lt h.state.causeBit (k := 4) (by decide) (by decide)
    have hword : b (19 + 5 * i) ++ b (20 + 5 * i) ++ b (21 + 5 * i) ++ b (22 + 5 * i) = h.line.setWidth 32 := by
      rw [show 19 + 5 * i = 18 + 5 * i + 1 by omega, show 20 + 5 * i = 18 + 5 * i + 2 by omega,
        show 21 + 5 * i = 18 + 5 * i + 3 by omega, show 22 + 5 * i = 18 + 5 * i + 4 by omega, hb 1 (by decide), hb 2 (by decide),
        hb 3 (by decide), hb 4 (by decide)]
      exact bytes4_append _
    rw [Nat.add_zero] at hbyte
    refine ⟨?_, ?_, hword⟩
    · rw [hbyte]
      exact hcode
    · rw [hbyte]
      exact (Eq.congr_left hcause).trans HeldState.causeBit_iff

end Sys2Proof.Machine

/-! PROOF. READ-LOCK and READ-MEMORY-PORT (O45): where each of their bytes puts what it reports. -/

namespace Sys2Proof.Machine

/-! ### READ-LOCK (R184) -/

section

variable (s : State) (x : Entry)

/-- READ-LOCK byte 1 of an entry that is not FREE. -/
def State.lockByte1 : Byte :=
  field x.work.code 0 ||| flag x.work.modeBit 3 ||| flag x.work.detached 4 ||| flag x.work.dueBit 5 |||
    flag (x.work.timed && s.suspended x) 6

/-- READ-LOCK of an entry that is not FREE. -/
def State.entryBytes : List Byte :=
  [s.lockByte1 x, field x.owner.val 0] ++ bytes4 (x.line.setWidth 32) ++
    bytes2 ((BitVec.ofNat 10 (s.holdReported x)).setWidth 16) ++
    [field x.waiters.length 0, place (fun p => field p.val 0) x.waiters 0, place (fun p => field p.val 0) x.waiters 1,
      place (fun p => field p.val 0) x.waiters 2]

theorem State.lockBytes_of_none {s : State} {e : EntryIx} (h : s.entry e = none) : s.lockBytes e = List.replicate 12 0 := by
  rw [State.lockBytes, h]

theorem State.lockBytes_of_some {s : State} {e : EntryIx} {x : Entry} (h : s.entry e = some x) :
    s.lockBytes e = s.entryBytes x := by
  rw [State.lockBytes, h]
  rfl

theorem EntryWork.code_lt (w : EntryWork) : w.code < 8 := by cases w <;> simp [EntryWork.code]

theorem State.lockByte1_bits : ((s.lockByte1 x).extractLsb' 0 3).toNat = x.work.code ∧
    (s.lockByte1 x).getLsbD 3 = x.work.modeBit ∧ (s.lockByte1 x).getLsbD 4 = x.work.detached ∧
    (s.lockByte1 x).getLsbD 5 = x.work.dueBit ∧ (s.lockByte1 x).getLsbD 6 = (x.work.timed && s.suspended x) := by
  have hcode := testBit_of_lt (w := 3) x.work.code_lt
  refine ⟨toNat_extract x.work.code_lt fun i hi => ?_, ?_, ?_, ?_, ?_⟩
  · simp only [State.lockByte1, BitVec.getLsbD_or, getLsbD_field, getLsbD_flag]
    interval_cases i <;> simp
  all_goals
    simp only [State.lockByte1, BitVec.getLsbD_or, getLsbD_field, getLsbD_flag]
    simp [hcode]

theorem EntryWork.modeBit_iff {w : EntryWork} :
    w.modeBit = true ↔ w = .fusingDetached ∨ ∃ n due, w = .fusingUnderLock n due := by
  cases w <;> simp [EntryWork.modeBit]

theorem EntryWork.detached_iff {w : EntryWork} :
    w.detached = true ↔ w = .acquiring true ∨ w = .releasing true ∨ w = .fusingDetached := by
  cases w <;> simp [EntryWork.detached]

theorem EntryWork.dueBit_iff {w : EntryWork} : w.dueBit = true ↔ ∃ n, w = .fusingUnderLock n true := by
  cases w <;> simp [EntryWork.dueBit]

/-- A work with a hold timer at `n` (R78). -/
def EntryWork.TimedAt (w : EntryWork) (n : Nat) : Prop := w = .held n ∨ ∃ due, w = .fusingUnderLock n due

theorem EntryWork.TimedAt.timed {w : EntryWork} {n : Nat} (h : w.TimedAt n) : w.timed = true := by
  obtain rfl | ⟨due, rfl⟩ := h <;> rfl

theorem State.holdReported_of_timed {s : State} {x : Entry} {n : Nat} (h : x.work.TimedAt n) :
    s.holdReported x = s.wholeMicroseconds n := by
  obtain h | ⟨due, h⟩ := h <;> rw [State.holdReported, h]

theorem EntryWork.untimed {w : EntryWork} (h : ∀ n, w ≠ .held n ∧ ∀ due, w ≠ .fusingUnderLock n due) :
    w.timed = false ∧ ∀ (s : State) (x : Entry), x.work = w → s.holdReported x = 0 := by
  cases w with
  | held n => exact absurd rfl (h n).1
  | fusingUnderLock n due => exact absurd rfl ((h n).2 due)
  | _ => exact ⟨rfl, fun s x hx => by rw [State.holdReported, hx]⟩

/-- A part of a microsecond is counted whole (R80). -/
theorem State.wholeMicroseconds_bounds (n : Nat) : n ≤ s.wholeMicroseconds n * s.perMicrosecond ∧
    s.wholeMicroseconds n * s.perMicrosecond < n + s.perMicrosecond := by
  have hdiv : s.wholeMicroseconds n * s.perMicrosecond + (n + s.clock.finer) % s.perMicrosecond = n + s.clock.finer :=
    Nat.div_add_mod' ..
  have hmod : (n + s.clock.finer) % s.perMicrosecond < s.perMicrosecond := Nat.mod_lt _ (Nat.succ_pos _)
  have hper : s.perMicrosecond = s.clock.finer + 1 := rfl
  omega

theorem State.wholeMicroseconds_lt {n : Nat} (h : n ≤ 1023 * s.perMicrosecond) : s.wholeMicroseconds n < 1024 := by
  obtain ⟨-, hlt⟩ := s.wholeMicroseconds_bounds n
  have hmul : s.wholeMicroseconds n * s.perMicrosecond < 1024 * s.perMicrosecond := by omega
  exact Nat.lt_of_mul_lt_mul_right hmul

theorem toNat_ten_in_sixteen {n : Nat} (h : n < 1024) : ((BitVec.ofNat 10 n).setWidth 16).toNat = n := by
  rw [BitVec.toNat_setWidth, BitVec.toNat_ofNat, Nat.mod_eq_of_lt (b := 2 ^ 10) h, Nat.mod_eq_of_lt (by omega)]

theorem portByte_toNat (l : List Port) (i : Nat) : (place (fun p : Port => field p.val 0) l i).toNat = (l[i]?.map Fin.val).getD 0 := by
  rw [place_field]
  exact field_toNat ((portNumber_lt l i).trans (by decide))

end

/-! ### READ-MEMORY-PORT (R185) -/

section

variable (s : State)

theorem MemState.causeCode_lt (st : MemState) : st.causeCode < 4 := by
  cases st with
  | down cause => cases cause <;> decide
  | _ => decide

/-- READ-MEMORY-PORT byte 1. -/
def State.memoryByte1 : Byte :=
  field s.mem.state.code 0 ||| field s.mem.state.causeCode 2 ||| flag s.pins.memIdle 4 ||| field s.mem.pointer.val 6

theorem State.memoryByte1_bits : (s.memoryByte1.extractLsb' 0 2).toNat = s.mem.state.code ∧
    (s.memoryByte1.extractLsb' 2 2).toNat = s.mem.state.causeCode ∧ s.memoryByte1.getLsbD 4 = s.pins.memIdle ∧
    (s.memoryByte1.extractLsb' 6 2).toNat = s.mem.pointer.val := by
  have hcode := testBit_of_lt (w := 2) s.mem.state.code_lt
  have hcause := testBit_of_lt (w := 2) s.mem.state.causeCode_lt
  refine ⟨toNat_extract s.mem.state.code_lt fun i hi => ?_, toNat_extract s.mem.state.causeCode_lt fun i hi => ?_, ?_,
    toNat_extract s.mem.pointer.isLt fun i hi => ?_⟩
  all_goals simp only [State.memoryByte1, BitVec.getLsbD_or, getLsbD_field, getLsbD_flag]
  · interval_cases i <;> simp
  · interval_cases i <;> simp [hcode]
  · simp [hcode, hcause]
  · interval_cases i <;> simp [hcode, hcause]

theorem Origin.code_lt (o : Origin) : o.code < 8 := by
  cases o with
  | request p id use => cases use <;> simp [Origin.code]
  | _ => simp [Origin.code]

theorem OutItem.byte_bits (i : OutItem) : (i.byte.extractLsb' 0 3).toNat = i.origin.code ∧
    (i.byte.extractLsb' 3 2).toNat = i.origin.port.val ∧ (i.byte.getLsbD 5 = true ↔ i.transfer.dir = .write) ∧
    i.byte.getLsbD 6 = i.accepted := by
  have hcode := testBit_of_lt (w := 3) i.origin.code_lt
  have hport := testBit_of_lt (w := 2) i.origin.port.isLt
  refine ⟨toNat_extract i.origin.code_lt fun j hj => ?_, toNat_extract i.origin.port.isLt fun j hj => ?_, ?_, ?_⟩
  all_goals simp only [OutItem.byte, BitVec.getLsbD_or, getLsbD_field, getLsbD_flag]
  · interval_cases j <;> simp
  · interval_cases j <;> simp [hcode]
  · simp [hcode, hport]
  · simp [hcode, hport]

end

/-- Settles O45. -/
theorem lockAndMemoryPortAreReported : Obligations.LockAndMemoryPortAreReported := by
  intro s
  refine ⟨fun e => State.lockBytes_of_none, fun e x hx hwaiters => ?lock, fun hout => ?memory⟩
  case lock =>
    rw [State.lockBytes_of_some hx]
    obtain ⟨hcode, hmode, hdetached, hdue, hsuspended⟩ := s.lockByte1_bits x
    intro b remaining
    have hremaining : b 7 ++ b 8 = (BitVec.ofNat 10 (s.holdReported x)).setWidth 16 := bytes2_append _
    refine ⟨?_, (Eq.congr_left hmode).trans EntryWork.modeBit_iff, (Eq.congr_left hdetached).trans EntryWork.detached_iff,
      (Eq.congr_left hdue).trans EntryWork.dueBit_iff, fun n hn => ⟨(Eq.congr_left hsuspended).trans ?_, fun hle => ?_⟩,
      fun hnone => ⟨hsuspended.trans ?_, ?_⟩, field_toNat (by omega), bytes4_append _, field_toNat (by omega), fun i hi => ?_⟩
    · refine hcode.trans ?_
      cases x.work <;> rfl
    · rw [EntryWork.TimedAt.timed hn]
      simp [State.suspended]
    · have hmicro : (b 7 ++ b 8).toNat = s.wholeMicroseconds n := by
        rw [hremaining, State.holdReported_of_timed hn, toNat_ten_in_sixteen (s.wholeMicroseconds_lt hle)]
      have hvalue : remaining = s.wholeMicroseconds n * s.perMicrosecond := congrArg (· * s.perMicrosecond) hmicro
      rw [hvalue]
      exact s.wholeMicroseconds_bounds n
    · rw [(EntryWork.untimed hnone).1, Bool.false_and]
    · rw [hremaining, (EntryWork.untimed hnone).2 s x rfl]
      rfl
    · interval_cases i
      · exact portByte_toNat x.waiters 0
      · exact portByte_toNat x.waiters 1
      · exact portByte_toNat x.waiters 2
  case memory =>
    obtain ⟨hcode, hcause, hidle, hpointer⟩ := s.memoryByte1_bits
    intro b
    have hitem : ∀ i < 4, b (4 + i) = place OutItem.byte s.mem.outstanding i := fun i hi => by interval_cases i <;> rfl
    refine ⟨hcode, hcause.trans ?_, hidle, hpointer, rfl, field_toNat (by omega), fun i hi => ⟨fun hnone => ?_, fun x hx => ?_⟩⟩
    · cases s.mem.state with
      | down cause => cases cause <;> rfl
      | _ => rfl
    · rw [hitem i hi, place, hnone]
      rfl
    · have hbyte : b (4 + i) = x.byte := by
        rw [hitem i hi, place, hx]
        rfl
      rw [hbyte]
      exact x.byte_bits

end Sys2Proof.Machine
